-- ==== Sys2Proof/Word.lean ====
section
/-! DEFINITION. The word types of teavault CORE (00_scope.md R14: `u8`, `u32`, `u64`; R8: `W`, `BLOCKBITS`). -/

namespace Sys2Proof

/-- A text byte, `u8` (20_memory.md R61). -/
abbrev Byte := BitVec 8

/-- A cipher, seed, key or bus word, `u32` (00_scope.md R8). -/
abbrev Word := BitVec 32

/-- A cipher block, `u64` (00_scope.md R8). -/
abbrev Block := BitVec 64

/-- "an ordered sequence of exactly 4 unsigned 32-bit words" (00_scope.md R8, R19). -/
abbrev Key := Vector Word 4

end Sys2Proof
end

