-- ==== Sys2Proof/Config.lean ====
section
/-! DEFINITION. What one machine fixes (the four parameters, 00_scope.md R9 to R12) and the free values:
opaque constants without a body that stand where the spec says "unspecified" (93 U1 to U8, U17, U19). -/

namespace Sys2Proof

/-- The four parameters of the block. "There is no other" (93_implementation_defined.md, end of part 3).
The state carries them so that every claim is about every choice of them (log 1). -/
structure Params where
  /-- `NMAX`, 00_scope.md R9. -/
  nmax : Nat
  /-- `NCTX`, 00_scope.md R10. -/
  nctx : Nat
  /-- `GUARD5`, 00_scope.md R12. -/
  guard5 : Bool
  /-- `DEFAULT_SEED[0..3]`, 00_scope.md R11. -/
  defaultSeed : Key
deriving DecidableEq, Repr

/-- `DEFAULT_SEED[j]`: "No default is given: the value is open" (00_scope.md R11; log 1). -/
opaque Config.defaultSeed (j : Nat) : Word

/-- `KEY[j]` after the reset numbered `epoch` (10_state.md R43, U1, U19; log 2). -/
opaque Config.resetKey (epoch j : Nat) : Word
/-- `RES` after a reset (10_state.md R43, U2; log 2). -/
opaque Config.resetRes (epoch : Nat) : Block
/-- `CLEN` after a reset (10_state.md R43, U3; log 2). -/
opaque Config.resetClen (epoch : Nat) : Word
/-- `BCNT` after a reset (10_state.md R43, U3; log 2). -/
opaque Config.resetBcnt (epoch : Nat) : Word
/-- `CKEY[j]` after a reset (10_state.md R43, U3; log 2). -/
opaque Config.resetCkey (epoch j : Nat) : Word
/-- The byte `TXT[p]` that nothing has written since the reset (U5: "the model draws the byte once"; log 3). -/
opaque Config.resetTxt (epoch p : Nat) : Byte
/-- Byte `a` of BLK that nothing has written since the reset (U3, U9; log 3). -/
opaque Config.resetBlk (epoch a : Nat) : Byte
/-- The byte `OUT[c][p]` that nothing has written since the reset (U4, U9; log 3). -/
opaque Config.resetOut (epoch c p : Nat) : Byte
/-- `OP` after a reset (10_state.md R43, U8; log 8). -/
opaque Config.resetOp (epoch : Nat) : BitVec 8
/-- `CTXL` after a reset (10_state.md R43, U8; log 8). -/
opaque Config.resetCtxl (epoch : Nat) : BitVec 4

/-- The scratch register `I` while BUSY = 0, draw number `d` (10_state.md R36, U8; log 7). -/
opaque Config.idleI (d : Nat) : Nat
/-- The scratch register `RND` while BUSY = 0 (10_state.md R36, U8; log 7). -/
opaque Config.idleRnd (d : Nat) : Nat
/-- The scratch register `SUM` while BUSY = 0 (10_state.md R36, U8; log 7). -/
opaque Config.idleSum (d : Nat) : Word
/-- The scratch register `W0` while BUSY = 0 (10_state.md R36, U8; log 7). -/
opaque Config.idleW0 (d : Nat) : Word
/-- The scratch register `W1` while BUSY = 0 (10_state.md R36, U8; log 7). -/
opaque Config.idleW1 (d : Nat) : Word

/-- The data of a bus read made while BUSY = 1, "drawn at each read" (10_state.md R39, U6; log 4). -/
opaque Config.busyRead (d : Nat) : Word

/-- The defaults of 00_scope.md R9, R10 and R12, with `DEFAULT_SEED` left open (R11). -/
def Params.default : Params where
  nmax := 256
  nctx := 4
  guard5 := true
  defaultSeed := #v[Config.defaultSeed 0, Config.defaultSeed 1, Config.defaultSeed 2, Config.defaultSeed 3]

/-- `BMAX = NMAX / 8`, the entries of BLK (00_scope.md R9). -/
def Params.bmax (p : Params) : Nat := p.nmax / 8

end Sys2Proof
end

