-- ==== Sys2Proof/Syntax.lean ====
section
/-! DEFINITION. The commands of teavault CORE, one constructor per row of spec/opcode_table.json
(30_encoding.md R92). -/

namespace Sys2Proof

/-- A command. The only operand a command word carries is the context number of DECRYPT (30_encoding.md R93). -/
inductive Instr
  /-- KDERIVE, 40_key_derivation.md R113. -/
  | kderive
  /-- ENCBLK, 41_block_cipher.md R130. -/
  | encblk
  /-- DECBLK, 41_block_cipher.md R131. -/
  | decblk
  /-- MAKE, 42_container.md R156. -/
  | make
  /-- DECRYPT c, 42_container.md R157. -/
  | decrypt (c : Nat)
  /-- CLRERR, 43_system.md R191. -/
  | clrerr
deriving DecidableEq, Repr

end Sys2Proof
end

