-- ==== Sys2Proof/WellFormed.lean ====
section
/-! DEFINITION. Which commands and which parameters exist. -/

namespace Sys2Proof

/-- A command fits its encoding: the context number is "an unsigned 4-bit number" (30_encoding.md R93). -/
def Instr.wf : Instr → Bool
  | .kderive => true
  | .encblk => true
  | .decblk => true
  | .make => true
  | .decrypt c => decide (c < 16)
  | .clrerr => true

/-- The legal ranges of the parameters: `NMAX` "is a multiple of 8 with 8 <= NMAX <= 4096" (00_scope.md R9),
"1 <= NCTX <= 16" (R10); every `GUARD5` and every `DEFAULT_SEED` is legal (R11, R12). -/
def Params.wf (p : Params) : Bool :=
  decide (p.nmax % 8 = 0) && decide (8 ≤ p.nmax) && decide (p.nmax ≤ 4096) &&
    decide (1 ≤ p.nctx) && decide (p.nctx ≤ 16)

end Sys2Proof
end

