-- ==== Sys2Proof/Decode.lean ====
section
/-! DEFINITION. Decoding a command word (30_encoding.md R91, R94, R95) and encoding a command (R91, R92). -/

namespace Sys2Proof

/-- Why a word is `illegal` (30_encoding.md R95): the three kinds of illegal word R95 lists. -/
inductive Illegal
  /-- "every word with a non-zero bit in 31:12". -/
  | reservedBits
  /-- OPC is that of a command other than DECRYPT, or of none, and CTX is not 0. -/
  | contextBits
  /-- OPC is none of the six opcodes. -/
  | opcode
deriving DecidableEq, Repr

/-- OPC, bits 7:0 (30_encoding.md R91). -/
def opcField (w : Word) : BitVec 8 := w.extractLsb' 0 8

/-- CTX, bits 11:8 (30_encoding.md R91). -/
def ctxField (w : Word) : BitVec 4 := w.extractLsb' 8 4

/-- RSV, bits 31:12 (30_encoding.md R91). -/
def rsvField (w : Word) : BitVec 20 := w.extractLsb' 12 20

/-- `Decode` of 30_encoding.md R94, its tests in R94's order. -/
def decode (w : Word) : Except Illegal Instr :=
  if rsvField w ≠ 0 then .error .reservedBits
  else if opcField w = 0x05 then .ok (.decrypt (ctxField w).toNat)
  else if ctxField w ≠ 0 then .error .contextBits
  else if opcField w = 0x01 then .ok .kderive
  else if opcField w = 0x02 then .ok .encblk
  else if opcField w = 0x03 then .ok .decblk
  else if opcField w = 0x04 then .ok .make
  else if opcField w = 0x0F then .ok .clrerr
  else .error .opcode

/-- Format C (30_encoding.md R91): RSV = 0, CTX in bits 11:8, OPC in bits 7:0. -/
def formatC (ctx : BitVec 4) (opc : BitVec 8) : Word := BitVec.ofNat 32 (ctx.toNat * 0x100 + opc.toNat)

/-- The command word of a command (30_encoding.md R92). -/
def encode : Instr → Word
  | .kderive => formatC 0 0x01
  | .encblk => formatC 0 0x02
  | .decblk => formatC 0 0x03
  | .make => formatC 0 0x04
  | .decrypt c => formatC (BitVec.ofNat 4 c) 0x05
  | .clrerr => formatC 0 0x0F

/-- The command the decoder reads from an opcode-table word: the low `nbits` bits of `w`, the bits above
them 0. A command is one 32-bit word (30_encoding.md R90), so no byte order enters. -/
def decodeTableWord (nbits w : Nat) : Option Instr :=
  match decode (BitVec.ofNat 32 (w % 2 ^ nbits)) with
  | .ok i => some i
  | .error _ => none

end Sys2Proof
end

