-- ==== Sys2Proof/Machine/Arith.lean ====
section
/-! DEFINITION. The 32-bit operators of 00_scope.md R15 and the counted loops of the pseudocode. -/

namespace Sys2Proof.Machine

/-- `add32(a, b) = (a + b) mod 2^32` (00_scope.md R15). -/
def add32 (a b : Word) : Word := a + b

/-- `sub32(a, b) = (a - b) mod 2^32` (00_scope.md R15). -/
def sub32 (a b : Word) : Word := a - b

/-- `shl32(a, n)`: "logical left shift, ... bits shifted out are lost" (00_scope.md R15; log 14). -/
def shl32 (a : Word) (n : Nat) : Word := a <<< n

/-- `shr32(a, n)`: "logical right shift, ... zeros shifted in" (00_scope.md R15; log 14). -/
def shr32 (a : Word) (n : Nat) : Word := a >>> n

/-- `xor32(a, b)` (00_scope.md R15). -/
def xor32 (a b : Word) : Word := a ^^^ b

/-- "repeat n times" (41_block_cipher.md R125). -/
def repeated {α : Type} (f : α → α) : Nat → α → α
  | 0, a => a
  | n + 1, a => f (repeated f n a)

/-- "for i in 0 .. n - 1, in this order" (42_container.md R156, R157). -/
def forUpTo {α : Type} (f : Nat → α → α) : Nat → α → α
  | 0, a => a
  | n + 1, a => f n (forUpTo f n a)

end Sys2Proof.Machine
end

