-- ==== Sys2Proof/Machine/State.lean ====
section
/-! DEFINITION. The state of teavault CORE (10_state.md R20, R43), its places, its bus transactions and inputs,
the state after reset, and the reasons a step can stop. -/

namespace Sys2Proof.Machine

/-- The refusal causes of 60_exceptions.md R201; their codes are `ErrCode.code`. -/
inductive ErrCode
  | opcode | busy | len | noKey | noCont | ctx | bus
deriving DecidableEq, Repr

/-- One byte memory: its written bytes as (address, byte) pairs, addresses strictly rising (`Memory.wf`). An
address not listed holds no value of its own: nothing has written it since the last reset (log 3). -/
abbrev Memory := List Host.Cell

/-- The memories the engine reaches through `MemRead` and `MemWrite` (00_scope.md R16, 20_memory.md R60). -/
inductive Space
  | txt
  | blk
  | out (c : Fin 16)
deriving DecidableEq, Repr

/-- A place the bus reaches: a register of 10_state.md R41, or a word of a window of 20_memory.md R70 at byte
offset `p` of the window. -/
inductive Loc
  | cmd | status | len
  | seed (j : Fin 4) | key (j : Fin 4)
  | v0 | v1 | resh | resl | clen | bcnt
  | ckey (j : Fin 4)
  | txt (p : Nat) | blk (p : Nat) | out (c : Fin 16) (p : Nat)
deriving DecidableEq, Repr

/-- One bus transaction (20_memory.md R67): a byte offset from the block's base ("The block decodes 17 address
bits", R70), a width in bytes, and the data of a write (`none` for a read). -/
structure Access where
  addr : BitVec 17
  bytes : Nat
  data : Option Word
deriving DecidableEq, Repr

/-- What happens at the block's boundary, one entry at a time (log 5). -/
inductive Input
  /-- The port accepts a bus transaction of the host (20_memory.md R67, R74). -/
  | bus (a : Access)
  /-- The engine takes its enabled step, if it has one (43_system.md R192). -/
  | engine
  /-- The reset input is applied (70_reset_and_hazards.md R230). -/
  | reset
deriving DecidableEq, Repr

/-- The engine's scratch registers (10_state.md R36): the construction index `I`, the round counter `RND`, the
accumulator `SUM`, the working halves `W0` and `W1`. -/
structure Scratch where
  i : Nat
  rnd : Nat
  sum : Word
  w0 : Word
  w1 : Word
deriving DecidableEq, Repr

/-- Everything the block holds (10_state.md R20: "the following and nothing else"), the parameters, and the
model's own fields `inputs`, `reply`, `epoch` and `draws`. -/
structure State where
  /-- NMAX, NCTX, GUARD5, DEFAULT_SEED; no step writes them (log 1). -/
  params : Params
  /-- SEED[0..3] (R21). -/
  seed : Key
  /-- KEY[0..3] (R22). -/
  key : Key
  /-- V0 (R23). -/
  v0 : Word
  /-- V1 (R23). -/
  v1 : Word
  /-- RES; RESH and RESL are its halves (R24). -/
  res : Block
  /-- LEN (R25). -/
  len : Word
  /-- CLEN (R26). -/
  clen : Word
  /-- BCNT (R26). -/
  bcnt : Word
  /-- CKEY[0..3] (R26). -/
  ckey : Key
  /-- STATUS.BUSY (R28). -/
  busy : Bool
  /-- STATUS.DONE (R29). -/
  done : Bool
  /-- STATUS.KVALID (R30). -/
  kvalid : Bool
  /-- STATUS.CVALID (R31). -/
  cvalid : Bool
  /-- STATUS.RVALID (R32). -/
  rvalid : Bool
  /-- STATUS.ERR (R33). -/
  err : BitVec 4
  /-- STATUS.OVALID, bit `c` for context `c` (R34). -/
  ovalid : BitVec 16
  /-- TXT, NMAX bytes (20_memory.md R61). -/
  txt : Memory
  /-- BLK, entry `j` at byte addresses `8j` to `8j + 7`, little-endian (20_memory.md R60, R62; log 15). -/
  blk : Memory
  /-- OUT[c]; the banks `c >= NCTX` do not exist and stay empty (20_memory.md R63). -/
  out : Vector Memory 16
  /-- OP (R36). -/
  op : BitVec 8
  /-- CTXL (R36). -/
  ctxl : BitVec 4
  /-- I, RND, SUM, W0, W1 (R36). -/
  scratch : Scratch
  /-- MODEL: how many resets have been applied since `State.reset`; it selects the free contents (log 3). -/
  epoch : Nat
  /-- MODEL: the number of the next free value to draw (log 4, log 7). -/
  draws : Nat
  /-- MODEL: what still happens at the block's boundary, first entry first (log 5). -/
  inputs : List Input
  /-- MODEL: the data returned by the bus read of the last step, if it was one (log 6). -/
  reply : Option Word
deriving DecidableEq, Repr

/-- Why a step stops. No state that meets `State.inv` reaches either (log 13). -/
inductive Fault
  /-- Raised by the engine's turn when BUSY = 1 and OP is none of the five values of 43_system.md R192 ("OP can
  hold no other value than the five listed"). Safe: the model stops where the spec gives nothing. -/
  | noCommand
  /-- Raised by the completion of MAKE and DECRYPT when it would access a byte outside TXT, BLK or OUT, which
  20_memory.md R60 says the engine never does. Safe: the model stops where the spec gives nothing. -/
  | outsideMemory
deriving DecidableEq, Repr

/-- Why the model answers nothing. -/
inductive Refusal
  /-- Raised by `exec` for a command whose meaning is not written; no arm raises it. Safe. -/
  | notModelled (mnemonic : String)
deriving DecidableEq, Repr

/-- What the scratch registers hold while BUSY = 0: free values, draw number `d` (10_state.md R36; log 7). -/
def Scratch.idle (d : Nat) : Scratch :=
  ⟨Config.idleI d, Config.idleRnd d, Config.idleSum d, Config.idleW0 d, Config.idleW1 d⟩

/-- The table of 10_state.md R43 for a machine with parameters `p` at its reset number `epoch`; the model's own
fields at their start values. -/
def State.resetFor (p : Params) (epoch draw : Nat) : State where
  params := p
  seed := p.defaultSeed
  key := #v[Config.resetKey epoch 0, Config.resetKey epoch 1, Config.resetKey epoch 2, Config.resetKey epoch 3]
  v0 := 0
  v1 := 0
  res := Config.resetRes epoch
  len := 0
  clen := Config.resetClen epoch
  bcnt := Config.resetBcnt epoch
  ckey :=
    #v[Config.resetCkey epoch 0, Config.resetCkey epoch 1, Config.resetCkey epoch 2, Config.resetCkey epoch 3]
  busy := false
  done := false
  kvalid := false
  cvalid := false
  rvalid := false
  err := 0
  ovalid := 0
  txt := []
  blk := []
  out := Vector.replicate 16 []
  op := Config.resetOp epoch
  ctxl := Config.resetCtxl epoch
  scratch := Scratch.idle draw
  epoch := epoch
  draws := draw + 1
  inputs := []
  reply := none

/-- The machine right after reset (10_state.md R43, 70_reset_and_hazards.md R231), with the default parameters. -/
def State.reset : State := State.resetFor Params.default 0 0

end Sys2Proof.Machine
end

