-- ==== Sys2Proof/Machine/Flags.lean ====
section
/-! DEFINITION. STATUS: the error codes, the word the host reads, and the flag updates every command shares
(10_state.md R27 to R34, 60_exceptions.md R201). -/

namespace Sys2Proof.Machine

/-- The code recorded in STATUS.ERR (60_exceptions.md R201). -/
def ErrCode.code : ErrCode → BitVec 4
  | .opcode => 1
  | .busy => 2
  | .len => 3
  | .noKey => 4
  | .noCont => 5
  | .ctx => 6
  | .bus => 7

/-- A flag at bit `k` of STATUS. -/
def flagAt (b : Bool) (k : Nat) : Word := (BitVec.ofBool b).setWidth 32 <<< k

/-- The STATUS word in the layout of 10_state.md R27: BUSY 0, DONE 1, KVALID 2, CVALID 3, RVALID 4, ERR 11:8,
OVALID 31:16; bits 7:5 and 15:12 read 0. -/
def statusWord (s : State) : Word :=
  flagAt s.busy 0 ||| flagAt s.done 1 ||| flagAt s.kvalid 2 ||| flagAt s.cvalid 3 ||| flagAt s.rvalid 4 |||
    (s.err.setWidth 32 <<< 8) ||| (s.ovalid.setWidth 32 <<< 16)

/-- `OVALID[c] <- 1` (42_container.md R157). -/
def setOvalid (c : Nat) (s : State) : State := { s with ovalid := s.ovalid ||| (1#16 <<< c) }

/-- `OVALID[c]` (10_state.md R34). -/
def ovalidBit (c : Nat) (s : State) : Bool := s.ovalid.getLsbD c

end Sys2Proof.Machine
end

