-- ==== Sys2Proof/Machine/Ops.lean ====
section
/-! DEFINITION. The shared operations: memory access (00_scope.md R16, 20_memory.md R60), taking a refusal and
returning from it (60_exceptions.md R205, R207), accepting and completing a command (43_system.md R190, R192),
reset (70_reset_and_hazards.md R231, R232). -/

namespace Sys2Proof.Machine

/-! ### Memories -/

/-- The byte written at address `x`, if one has been written. -/
def Memory.lookup : Memory → Nat → Option Byte
  | [], _ => none
  | (a, b) :: m, x => if a = x then some b else Memory.lookup m x

/-- Store a byte, keeping the addresses strictly rising. -/
def Memory.store : Memory → Nat → Byte → Memory
  | [], x, v => [(x, v)]
  | (a, b) :: m, x, v =>
    if x < a then (x, v) :: (a, b) :: m
    else if x = a then (x, v) :: m
    else (a, b) :: Memory.store m x v

/-- The canonical form: addresses strictly rising. An unlisted address has no value of its own, so no entry can
equal what an unlisted address holds (log 3). -/
def Memory.wf : Memory → Bool
  | [] => true
  | [_] => true
  | (a, _) :: (b, v) :: m => decide (a < b) && Memory.wf ((b, v) :: m)

/-- Every listed address is below `n`. -/
def Memory.within (n : Nat) (m : Memory) : Bool := m.all fun c => decide (c.1 < n)

/-- The memory behind a space; the spaces are distinct memories (10_state.md R38). -/
def bank (sp : Space) (s : State) : Memory :=
  match sp with
  | .txt => s.txt
  | .blk => s.blk
  | .out c => s.out[c.val]

/-- Put a memory back. -/
def setBank (sp : Space) (m : Memory) (s : State) : State :=
  match sp with
  | .txt => { s with txt := m }
  | .blk => { s with blk := m }
  | .out c => { s with out := s.out.set c.val m c.isLt }

/-- What an address that nothing has written since the last reset reads as: a free value, the same at every read
until the next reset (10_state.md R43, U3 to U5, U9; log 3). -/
def unwritten (epoch : Nat) (sp : Space) (a : Nat) : Byte :=
  match sp with
  | .txt => Config.resetTxt epoch a
  | .blk => Config.resetBlk epoch a
  | .out c => Config.resetOut epoch c.val a

/-- One byte of a space. -/
def readByte (sp : Space) (a : Nat) (s : State) : Byte :=
  (Memory.lookup (bank sp s) a).getD (unwritten s.epoch sp a)

/-- Store one byte of a space. -/
def writeByte (sp : Space) (a : Nat) (v : Byte) (s : State) : State :=
  setBank sp (Memory.store (bank sp s) a v) s

/-- `MemRead(space, addr, n)`: "n bytes at byte address addr of space, as an unsigned little-endian number"
(00_scope.md R16). -/
def memRead (sp : Space) (a : Nat) : Nat → State → Nat
  | 0, _ => 0
  | n + 1, s => (readByte sp a s).toNat + 256 * memRead sp (a + 1) n s

/-- `MemWrite(space, addr, n, v)`: "store the n low bytes of v at byte address addr of space, little-endian"
(00_scope.md R16). -/
def memWrite (sp : Space) (a : Nat) : Nat → Nat → State → State
  | 0, _, s => s
  | n + 1, v, s => memWrite sp (a + 1) n (v / 256) (writeByte sp a (BitVec.ofNat 8 v) s)

/-! ### Refusal and return -/

/-- `Refuse(code)`: "if ERR = 0: ERR <- code" and nothing else (60_exceptions.md R205, R202; 10_state.md R33). -/
def refuse (c : ErrCode) (s : State) : State := if s.err = 0 then { s with err := c.code } else s

/-- The return from a refusal: "sets ERR to 0 and restores nothing else" (60_exceptions.md R207, 43_system.md
R191). -/
def clearError (s : State) : State := { s with err := 0 }

/-! ### Acceptance and completion -/

/-- 43_system.md R190 step 5: latch OP and CTXL, BUSY <- 1, DONE <- 0. -/
def latch (i : Instr) (s : State) : State :=
  { s with op := opcField (encode i), ctxl := ctxField (encode i), busy := true, done := false }

/-- 43_system.md R190 steps 2 to 5 for a command other than CLRERR whose own check (step 4) is `check`, the engine
idle. -/
def accept (i : Instr) (check : State → Option ErrCode) (s : State) : State :=
  if s.err ≠ 0 then s
  else
    match check s with
    | some c => refuse c s
    | none => latch i s

/-- The command in progress: the case distinction on OP of 43_system.md R192. -/
def inProgress (s : State) : Option Instr :=
  if s.op = 0x01 then some .kderive
  else if s.op = 0x02 then some .encblk
  else if s.op = 0x03 then some .decblk
  else if s.op = 0x04 then some .make
  else if s.op = 0x05 then some (.decrypt s.ctxl.toNat)
  else none

/-- The end of every completion (43_system.md R192): BUSY <- 0, DONE <- 1. The scratch registers keep no
meaning and become free values (10_state.md R36; log 7). -/
def finish (s : State) : State :=
  { s with busy := false, done := true, scratch := Scratch.idle s.draws, draws := s.draws + 1 }

/-- A command other than CLRERR, at either of its two moments (log 9). Engine idle: its acceptance (43_system.md
R190). Engine busy with it: its completion (R192), running the pseudocode `body`; `fits` says that no access of
`body` leaves its memory (20_memory.md R60). Engine busy with another command: the write is refused (R190
step 1). -/
def command (i : Instr) (check : State → Option ErrCode) (fits : State → Bool) (body : State → State)
    (s : State) : Host.Outcome State Fault Refusal :=
  if s.busy then
    if inProgress s = some i then
      if fits s then .next (finish (body s)) else .fault .outsideMemory
    else .next (refuse .busy s)
  else .next (accept i check s)

/-! ### Reset -/

/-- Reset at any time (70_reset_and_hazards.md R230 to R232): every piece of state at its reset value, the
unspecified ones at the free values of the next epoch (U19). The parameters, the inputs still to come and the
count of draws are not the block's state and stay. -/
def applyReset (s : State) : State :=
  { State.resetFor s.params (s.epoch + 1) s.draws with inputs := s.inputs, reply := s.reply }

end Sys2Proof.Machine
end

