-- ==== Sys2Proof/Machine/Operands.lean ====
section
/-! DEFINITION. How bytes become words and words become blocks, and back (20_memory.md R64 to R66). -/

namespace Sys2Proof.Machine

/-- `PackBlock(v0, v1)`: v0 in bits 63:32, v1 in bits 31:0 (20_memory.md R64). -/
def packBlock (v0 v1 : Word) : Block := v0 ++ v1

/-- `BlockHi(b) = b[63:32]` (20_memory.md R64). -/
def blockHi (b : Block) : Word := b.extractLsb' 32 32

/-- `BlockLo(b) = b[31:0]` (20_memory.md R64). -/
def blockLo (b : Block) : Word := b.extractLsb' 0 32

/-- `TxtByte(n, p)`: the byte of the text below position `n - 1`, zero from there on (20_memory.md R65). -/
def txtByte (n p : Nat) (s : State) : Nat := if p < n - 1 then memRead .txt p 1 s else 0

/-- `Pack32LE(n, off)` (20_memory.md R65). -/
def pack32LE (n off : Nat) (s : State) : Word :=
  BitVec.ofNat 32
    (txtByte n off s + txtByte n (off + 1) s * 2 ^ 8 + txtByte n (off + 2) s * 2 ^ 16 +
      txtByte n (off + 3) s * 2 ^ 24)

/-- The byte number `k mod 4` of a word, `shr32(w, 8 * (k mod 4))[7:0]` (20_memory.md R66). -/
def wordByte (w : Word) (k : Nat) : Byte := (shr32 w (8 * (k % 4))).extractLsb' 0 8

/-- One trip of the loop of `OutChunk` (20_memory.md R66). -/
def outByte (sp : Space) (n off : Nat) (v0 v1 : Word) (k : Nat) (s : State) : State :=
  if off + k < n - 1 then memWrite sp (off + k) 1 (wordByte (if k < 4 then v0 else v1) k).toNat s else s

/-- `OutChunk(c, n, off, v0, v1)` into the space `sp = OUT[c]` (20_memory.md R66). -/
def outChunk (sp : Space) (n off : Nat) (v0 v1 : Word) (s : State) : State :=
  forUpTo (outByte sp n off v0 v1) 8 s

/-- The entry `BLK[j]`, 8 bytes at address `8 * j` (20_memory.md R60, R62). -/
def blkEntry (j : Nat) (s : State) : Block := BitVec.ofNat 64 (memRead .blk (8 * j) 8 s)

/-- `MemWrite(BLK, 8 * j, 8, b)` (20_memory.md R60). -/
def setBlkEntry (j : Nat) (b : Block) (s : State) : State := memWrite .blk (8 * j) 8 b.toNat s

/-- The output buffer of a context (20_memory.md R63). -/
def outSpace (c : Nat) : Space := .out (Fin.ofNat 16 c)

end Sys2Proof.Machine
end

