-- ==== Sys2Proof/Machine/Bus.lean ====
section
/-! DEFINITION. The bus port: the address map and the effect of every transaction but a CMD write
(10_state.md R39 to R42, 20_memory.md R67 to R72). -/

namespace Sys2Proof.Machine

/-- The register table of 10_state.md R41: byte offset and register. An offset below 0x1000 that is not listed is
reserved (R42). -/
def registerMap : List (Nat × Loc) :=
  [(0x000, .cmd), (0x004, .status), (0x008, .len),
   (0x010, .seed 0), (0x014, .seed 1), (0x018, .seed 2), (0x01C, .seed 3),
   (0x020, .key 0), (0x024, .key 1), (0x028, .key 2), (0x02C, .key 3),
   (0x030, .v0), (0x034, .v1), (0x038, .resh), (0x03C, .resl),
   (0x040, .clen), (0x044, .bcnt),
   (0x050, .ckey 0), (0x054, .ckey 1), (0x058, .ckey 2), (0x05C, .ckey 3)]

/-- The window map of 20_memory.md R70: what stands at a byte offset of the block, `none` where it is reserved. -/
def locate (p : Params) (off : Nat) : Option Loc :=
  if off < 0x1000 then registerMap.lookup off
  else if off < 0x2000 then (if off - 0x1000 < p.nmax then some (.txt (off - 0x1000)) else none)
  else if off < 0x10000 then (if off - 0x2000 < 8 * p.bmax then some (.blk (off - 0x2000)) else none)
  else
    let c := (off - 0x10000) / 0x1000
    let q := (off - 0x10000) % 0x1000
    if c < p.nctx ∧ q < p.nmax then some (.out (Fin.ofNat 16 c) q) else none

/-- Where a transaction goes: the place at its offset if it is an aligned 32-bit one, else nowhere
(20_memory.md R67, R71). -/
def target (p : Params) (a : Access) : Option Loc :=
  if a.bytes = 4 ∧ a.addr.toNat % 4 = 0 then locate p a.addr.toNat else none

/-- The word at window offset `p` of a memory, its lowest byte in bits 7:0 (20_memory.md R68, R69). -/
def windowWord (sp : Space) (p : Nat) (s : State) : Word := BitVec.ofNat 32 (memRead sp p 4 s)

/-- What a read of a place returns while the engine is idle (10_state.md R20, R35, R41; 20_memory.md R68, R69). -/
def loadLoc (l : Loc) (s : State) : Word :=
  match l with
  | .cmd => 0
  | .status => statusWord s
  | .len => s.len
  | .seed j => s.seed[j.val]
  | .key j => s.key[j.val]
  | .v0 => s.v0
  | .v1 => s.v1
  | .resh => blockHi s.res
  | .resl => blockLo s.res
  | .clen => s.clen
  | .bcnt => s.bcnt
  | .ckey j => s.ckey[j.val]
  | .txt p => windowWord .txt p s
  | .blk p => windowWord .blk p s
  | .out c p => windowWord (.out c) p s

/-- What a write to a place other than CMD does while the engine is idle: LEN, SEED, V0, V1 and TXT store, every
other place is read-only and refuses with `ERR_BUS` (10_state.md R41, 20_memory.md R68, R71). -/
def storeLoc (l : Loc) (w : Word) (s : State) : State :=
  match l with
  | .len => { s with len := w }
  | .seed j => { s with seed := s.seed.set j.val w j.isLt }
  | .v0 => { s with v0 := w }
  | .v1 => { s with v1 := w }
  | .txt p => memWrite .txt p 4 w.toNat s
  | .cmd => refuse .bus s
  | .status => refuse .bus s
  | .key _ => refuse .bus s
  | .resh => refuse .bus s
  | .resl => refuse .bus s
  | .clen => refuse .bus s
  | .bcnt => refuse .bus s
  | .ckey _ => refuse .bus s
  | .blk _ => refuse .bus s
  | .out _ _ => refuse .bus s

/-- Return data to the host. -/
def respond (w : Word) (s : State) : State := { s with reply := some w }

/-- A read while BUSY = 1 of anything but STATUS and CMD: a fresh free value (10_state.md R39, U6; log 4, log 11). -/
def respondFree (s : State) : State :=
  { s with reply := some (Config.busyRead s.draws), draws := s.draws + 1 }

/-- A bus read. Busy: STATUS exact, CMD 0, anything else unspecified, nothing refused (10_state.md R39,
20_memory.md R71). Idle: the place's value; a reserved offset or a transaction that is no aligned 32-bit word
returns 0 and is refused with `ERR_BUS` (R42, R67, R71). -/
def busRead (a : Access) (s : State) : State :=
  match s.busy, target s.params a with
  | true, some .status => respond (statusWord s) s
  | true, some .cmd => respond 0 s
  | true, _ => respondFree s
  | false, some l => respond (loadLoc l s) s
  | false, none => respond 0 (refuse .bus s)

end Sys2Proof.Machine
end

