-- ==== Sys2Proof/Machine/Cipher.lean ====
section
/-! DEFINITION. The block cipher as pure functions (41_block_cipher.md R120 to R126). -/

namespace Sys2Proof.Machine

/-- `DELTA = 0x9E3779B9` (41_block_cipher.md R120). -/
def delta : Word := 0x9E3779B9

/-- `ROUNDS = 64` (41_block_cipher.md R120). -/
def rounds : Nat := 64

/-- `INITSUM = (DELTA * 64) mod 2^32` (41_block_cipher.md R125). -/
def initSum : Word := BitVec.ofNat 32 (delta.toNat * rounds)

/-- The Feistel function `F(x, s, ka, kb)` (41_block_cipher.md R122). -/
def feistel (x sum ka kb : Word) : Word :=
  xor32 (xor32 (add32 (shl32 x 4) ka) (add32 x sum)) (add32 (shr32 x 5) kb)

/-- The working halves and the accumulator, `(v0, v1, sum)` (41_block_cipher.md R123). -/
structure RoundState where
  v0 : Word
  v1 : Word
  sum : Word
deriving DecidableEq, Repr

/-- `ENC_ROUND` (41_block_cipher.md R123): `sum` first, then `v0` from the old `v1`, then `v1` from the new
`v0`. -/
def encRound (k : Key) (r : RoundState) : RoundState :=
  let sum := add32 r.sum delta
  let v0 := add32 r.v0 (feistel r.v1 sum k[0] k[1])
  let v1 := add32 r.v1 (feistel v0 sum k[2] k[3])
  ⟨v0, v1, sum⟩

/-- `DEC_ROUND` (41_block_cipher.md R124): `v1` first, then `v0` from the restored `v1`, then `sum`. -/
def decRound (k : Key) (r : RoundState) : RoundState :=
  let v1 := sub32 r.v1 (feistel r.v0 r.sum k[2] k[3])
  let v0 := sub32 r.v0 (feistel v1 r.sum k[0] k[1])
  let sum := sub32 r.sum delta
  ⟨v0, v1, sum⟩

/-- `ENC(v0, v1, k)`: 64 rounds from `sum = 0` (41_block_cipher.md R125). -/
def enc (v0 v1 : Word) (k : Key) : Block :=
  let r := repeated (encRound k) rounds ⟨v0, v1, 0⟩
  packBlock r.v0 r.v1

/-- `DEC(v0, v1, k)`: 64 rounds from `sum = INITSUM` (41_block_cipher.md R125). -/
def dec (v0 v1 : Word) (k : Key) : Block :=
  let r := repeated (decRound k) rounds ⟨v0, v1, initSum⟩
  packBlock r.v0 r.v1

end Sys2Proof.Machine
end

