-- ==== Sys2Proof/Machine/BlockCipher.lean ====
section
/-! DEFINITION. The commands ENCBLK and DECBLK (41_block_cipher.md R130, R131). -/

namespace Sys2Proof.Machine

/-- The check of ENCBLK and DECBLK: KVALID, else `ERR_NOKEY` (43_system.md R190 step 4). -/
def keyCheck (s : State) : Option ErrCode := if s.kvalid then none else some .noKey

/-- The pseudocode of ENCBLK (41_block_cipher.md R130). -/
def encryptBlock (s : State) : State := { s with res := enc s.v0 s.v1 s.key, rvalid := true }

/-- The pseudocode of DECBLK (41_block_cipher.md R131). -/
def decryptBlock (s : State) : State := { s with res := dec s.v0 s.v1 s.key, rvalid := true }

/-- ENCBLK (41_block_cipher.md R130). -/
def execEncblk (s : State) : Host.Outcome State Fault Refusal :=
  command .encblk keyCheck (fun _ => true) encryptBlock s

/-- DECBLK (41_block_cipher.md R131). -/
def execDecblk (s : State) : Host.Outcome State Fault Refusal :=
  command .decblk keyCheck (fun _ => true) decryptBlock s

end Sys2Proof.Machine
end

