-- ==== Sys2Proof/Machine/KeyDerivation.lean ====
section
/-! DEFINITION. Key derivation and the command KDERIVE (40_key_derivation.md). -/

namespace Sys2Proof.Machine

/-- `KD(s)`, the fixed permutation `[s[2], s[0], s[3], s[1]]` (40_key_derivation.md R110). -/
def keyDerive (seed : Key) : Key := #v[seed[2], seed[0], seed[3], seed[1]]

/-- The pseudocode of KDERIVE (40_key_derivation.md R113). -/
def deriveKey (s : State) : State := { s with key := keyDerive s.seed, kvalid := true }

/-- KDERIVE: "no refusal of its own" (40_key_derivation.md R113). -/
def execKderive (s : State) : Host.Outcome State Fault Refusal :=
  command .kderive (fun _ => none) (fun _ => true) deriveKey s

end Sys2Proof.Machine
end

