-- ==== Sys2Proof/Machine/Container.lean ====
section
/-! DEFINITION. The encrypted container and the commands MAKE and DECRYPT (42_container.md). -/

namespace Sys2Proof.Machine

/-- `BC(n) = (n + 6) div 8` (42_container.md R150). -/
def blockCount (n : Nat) : Nat := (n + 6) / 8

/-- `SCR(i, bc) = (i * 5) mod bc` (42_container.md R151). -/
def scramble (i bc : Nat) : Nat := (i * 5) % bc

/-- `Supported(n)` (42_container.md R153). -/
def supported (p : Params) (n : Nat) : Bool :=
  decide (1 ≤ n) && decide (n ≤ p.nmax) &&
    (!p.guard5 || decide (blockCount n = 0) || decide (blockCount n % 5 ≠ 0))

/-- `MK_STEP(n, bc, k, i)` (42_container.md R154). -/
def makeStep (n bc : Nat) (k : Key) (i : Nat) (s : State) : State :=
  let idx := scramble i bc
  let off := idx * 8
  let part1 := pack32LE n off s
  let part2 := pack32LE n (off + 4) s
  setBlkEntry idx (enc part1 part2 k) s

/-- `DC_STEP(c, n, bc, k, i)`, `sp = OUT[c]` (42_container.md R155). -/
def decryptStep (sp : Space) (n bc : Nat) (k : Key) (i : Nat) (s : State) : State :=
  let idx := scramble i bc
  let b := blkEntry idx s
  let r := dec (blockHi b) (blockLo b) k
  outChunk sp n (idx * 8) (blockHi r) (blockLo r) s

/-- The check of MAKE: `Supported(LEN)`, else `ERR_LEN` (43_system.md R190 step 4). -/
def lengthCheck (s : State) : Option ErrCode := if supported s.params s.len.toNat then none else some .len

/-- The checks of DECRYPT c: the context number, then the container (43_system.md R190 step 4). -/
def containerCheck (c : Nat) (s : State) : Option ErrCode :=
  if c ≥ s.params.nctx then some .ctx else if s.cvalid then none else some .noCont

/-- No access of MAKE leaves TXT or BLK: `1 <= LEN <= NMAX`, and the blocks are at most BMAX (20_memory.md R60). -/
def makeFits (s : State) : Bool :=
  decide (1 ≤ s.len.toNat) && decide (s.len.toNat ≤ s.params.nmax) &&
    decide (blockCount s.len.toNat ≤ s.params.bmax)

/-- No access of DECRYPT c leaves BLK or OUT[c] (20_memory.md R60). -/
def decryptFits (c : Nat) (s : State) : Bool :=
  decide (1 ≤ s.clen.toNat) && decide (s.clen.toNat ≤ s.params.nmax) &&
    decide (s.bcnt.toNat ≤ s.params.bmax) && decide (c < s.params.nctx)

/-- CKEY, CLEN and BCNT of a new container, the first lines of MAKE (42_container.md R156). -/
def openContainer (s : State) : State :=
  { s with ckey := keyDerive s.seed, clen := s.len, bcnt := BitVec.ofNat 32 (blockCount s.len.toNat) }

/-- `CVALID <- 1` (42_container.md R156). -/
def validateContainer (s : State) : State := { s with cvalid := true }

/-- The pseudocode of MAKE (42_container.md R156). -/
def buildContainer (s : State) : State :=
  let n := s.len.toNat
  let bc := blockCount n
  let s1 := openContainer s
  validateContainer (forUpTo (makeStep n bc s1.ckey) bc s1)

/-- The last lines of DECRYPT c: the terminator at `n - 1`, `OVALID[c] <- 1` (42_container.md R157). -/
def closeView (c n : Nat) (s : State) : State := setOvalid c (memWrite (outSpace c) (n - 1) 1 0 s)

/-- The pseudocode of DECRYPT c (42_container.md R157). -/
def decryptContainer (c : Nat) (s : State) : State :=
  let n := s.clen.toNat
  let bc := s.bcnt.toNat
  closeView c n (forUpTo (decryptStep (outSpace c) n bc s.ckey) bc s)

/-- MAKE (42_container.md R156). -/
def execMake (s : State) : Host.Outcome State Fault Refusal :=
  command .make lengthCheck makeFits buildContainer s

/-- DECRYPT c (42_container.md R157). -/
def execDecrypt (c : Nat) (s : State) : Host.Outcome State Fault Refusal :=
  command (.decrypt c) (containerCheck c) (decryptFits c) (decryptContainer c) s

end Sys2Proof.Machine
end

