-- ==== Sys2Proof/Machine/System.lean ====
section
/-! DEFINITION. The command CLRERR (43_system.md R191). -/

namespace Sys2Proof.Machine

/-- CLRERR takes effect within the CMD write and has no completion; while BUSY = 1 it is refused like every write
(43_system.md R191, R190 steps 1 and 2). -/
def execClrerr (s : State) : Host.Outcome State Fault Refusal :=
  .next (if s.busy then refuse .busy s else clearError s)

end Sys2Proof.Machine
end

