-- ==== Sys2Proof/Machine/Dispatch.lean ====
section
/-! DEFINITION. The dispatch: one arm per command (30_encoding.md R92). -/

namespace Sys2Proof.Machine

def exec (i : Instr) (s : State) : Host.Outcome State Fault Refusal :=
  match i with
  | .kderive => Sys2Proof.Machine.execKderive s
  | .encblk => Sys2Proof.Machine.execEncblk s
  | .decblk => Sys2Proof.Machine.execDecblk s
  | .make => Sys2Proof.Machine.execMake s
  | .decrypt c => Sys2Proof.Machine.execDecrypt c s
  | .clrerr => Sys2Proof.Machine.execClrerr s

end Sys2Proof.Machine
end

