-- ==== Sys2Proof/Machine/Turns.lean ====
section
/-! DEFINITION. What one entry of the inputs does: the turn of the bus and the turn of the engine. -/

namespace Sys2Proof.Machine

/-- A write of the word `w` to CMD while the engine is idle: 43_system.md R190 steps 2 to 5. An illegal word is
refused with `ERR_OPCODE`, silently while ERR is not 0 (steps 2 and 3). -/
def writeCommand (w : Word) (s : State) : Host.Outcome State Fault Refusal :=
  match decode w with
  | .ok i => exec i s
  | .error _ => .next (refuse .opcode s)

/-- A bus write. Busy: ignored with `ERR_BUSY` (10_state.md R40). Idle: a command at CMD, a store elsewhere,
`ERR_BUS` where there is nothing or the transaction is no aligned 32-bit word (20_memory.md R71). -/
def busWrite (a : Access) (w : Word) (s : State) : Host.Outcome State Fault Refusal :=
  if s.busy then .next (refuse .busy s)
  else
    match target s.params a with
    | some .cmd => writeCommand w s
    | some l => .next (storeLoc l w s)
    | none => .next (refuse .bus s)

/-- The turn of the bus port: one transaction (20_memory.md R67). -/
def busTurn (a : Access) (s : State) : Host.Outcome State Fault Refusal :=
  match a.data with
  | none => .next (busRead a s)
  | some w => busWrite a w s

/-- The turn of the engine: completion of the command in progress, nothing while idle (43_system.md R192,
60_exceptions.md R212). -/
def engineTurn (s : State) : Host.Outcome State Fault Refusal :=
  if s.busy then
    match inProgress s with
    | some i => exec i s
    | none => .fault .noCommand
  else .next s

/-- The host's write of the word `w` to CMD (30_encoding.md R90). -/
def commandWrite (w : Word) : Input := .bus ⟨0, 4, some w⟩

/-- Take the next entry off the inputs; the last read's data is no longer on the bus. -/
def advance (rest : List Input) (s : State) : State := { s with inputs := rest, reply := none }

/-- One step: the next entry of the inputs happens. When none is left the engine takes its turn, so that a
command in progress completes (70_reset_and_hazards.md R242; log 16). -/
def takeInput (s : State) : Host.Outcome State Fault Refusal :=
  match s.inputs with
  | [] => engineTurn (advance [] s)
  | .engine :: rest => engineTurn (advance rest s)
  | .bus a :: rest => busTurn a (advance rest s)
  | .reset :: rest => .next (applyReset (advance rest s))

end Sys2Proof.Machine
end

