-- ==== Sys2Proof/Machine/Step.lean ====
section
/-! DEFINITION. The step, and where it takes its next command from. -/

namespace Sys2Proof.Machine

/-- One step of the machine: one entry of the inputs, or the engine's turn when none is left (log 5, log 16). -/
def step (s : State) : Host.Outcome State Fault Refusal := takeInput s

/-- Let the host's next transaction be the write to CMD of the word whose low `nbits` bits are those of `w`. There
is no fetch (10_state.md R37): a command runs because the host writes it to CMD (log 10). -/
def State.withFetchWord (s : State) (nbits w : Nat) : State :=
  { s with inputs := commandWrite (BitVec.ofNat 32 (w % 2 ^ nbits)) :: s.inputs }

end Sys2Proof.Machine
end

