-- ==== Sys2Proof/Machine/Engine.lean ====
section
/-! DEFINITION. The engine's own schedule: one cipher round per engine step on the scratch registers
(41_block_cipher.md R129, 10_state.md R36 and R37, 42_container.md R158, 70_reset_and_hazards.md R241). The step
of the model does not use it: it takes the whole command as one step, as 43_system.md R192 says a model does. The
statement that both agree is an obligation. Where inside a trip a value is loaded or stored is not given by the
spec and not observable (log 18). -/

namespace Sys2Proof.Machine

/-- The key a command's rounds use: CKEY for MAKE and DECRYPT, KEY for ENCBLK and DECBLK (42_container.md R156,
R157; 41_block_cipher.md R130, R131). -/
def engineKey (i : Instr) (s : State) : Key :=
  match i with
  | .kderive => s.key
  | .encblk => s.key
  | .decblk => s.key
  | .make => s.ckey
  | .decrypt _ => s.ckey
  | .clrerr => s.key

/-- "loads W0 and W1 with its input halves, SUM with 0 (encryption) or INITSUM (decryption), and RND with 0"
(41_block_cipher.md R129). -/
def loadBlock (w0 w1 sum : Word) (s : State) : State :=
  { s with scratch := { s.scratch with rnd := 0, sum := sum, w0 := w0, w1 := w1 } }

/-- Load the block of the current index `I` (41_block_cipher.md R129, 42_container.md R154, R155). -/
def engineFetch (i : Instr) (s : State) : State :=
  match i with
  | .kderive => s
  | .encblk => loadBlock s.v0 s.v1 0 s
  | .decblk => loadBlock s.v0 s.v1 initSum s
  | .make =>
    let off := scramble s.scratch.i s.bcnt.toNat * 8
    loadBlock (pack32LE s.clen.toNat off s) (pack32LE s.clen.toNat (off + 4) s) 0 s
  | .decrypt _ =>
    let b := blkEntry (scramble s.scratch.i s.bcnt.toNat) s
    loadBlock (blockHi b) (blockLo b) initSum s
  | .clrerr => s

/-- The round a command applies (41_block_cipher.md R123, R124). -/
def engineRoundOf (i : Instr) (k : Key) : RoundState → RoundState :=
  match i with
  | .kderive => id
  | .encblk => encRound k
  | .decblk => decRound k
  | .make => encRound k
  | .decrypt _ => decRound k
  | .clrerr => id

/-- "one round per engine step to (W0, W1, SUM), incrementing RND" (41_block_cipher.md R129). -/
def engineRound (i : Instr) (s : State) : State :=
  let r := engineRoundOf i (engineKey i s) ⟨s.scratch.w0, s.scratch.w1, s.scratch.sum⟩
  { s with scratch := { s.scratch with rnd := s.scratch.rnd + 1, sum := r.sum, w0 := r.v0, w1 := r.v1 } }

/-- Put the finished block where it belongs (41_block_cipher.md R130, R131; 42_container.md R154, R155). -/
def engineStore (i : Instr) (s : State) : State :=
  match i with
  | .kderive => s
  | .encblk => { s with res := packBlock s.scratch.w0 s.scratch.w1 }
  | .decblk => { s with res := packBlock s.scratch.w0 s.scratch.w1 }
  | .make => setBlkEntry (scramble s.scratch.i s.bcnt.toNat) (packBlock s.scratch.w0 s.scratch.w1) s
  | .decrypt c =>
    outChunk (outSpace c) s.clen.toNat (scramble s.scratch.i s.bcnt.toNat * 8) s.scratch.w0 s.scratch.w1 s
  | .clrerr => s

/-- Go to the next construction index (10_state.md R37). -/
def nextIndex (s : State) : State :=
  { s with scratch := { s.scratch with i := s.scratch.i + 1, rnd := 0 } }

/-- One engine step: load at the start of a trip, one round, store at the end of it (10_state.md R37: "inside each
I, RND runs 1 to 64"). -/
def engineTick (i : Instr) (s : State) : State :=
  let s1 := engineRound i (if s.scratch.rnd = 0 then engineFetch i s else s)
  if s1.scratch.rnd = rounds then nextIndex (engineStore i s1) else s1

/-- What a command does before its rounds; every scratch register it uses is initialised (10_state.md R36). -/
def engineOpen (i : Instr) (s : State) : State :=
  let s0 : State := { s with scratch := { s.scratch with i := 0, rnd := 0 } }
  match i with
  | .kderive => { s0 with key := keyDerive s0.seed }
  | .encblk => s0
  | .decblk => s0
  | .make => openContainer s0
  | .decrypt _ => s0
  | .clrerr => s0

/-- What a command does after its rounds: its valid flag, and the terminator of DECRYPT. -/
def engineClose (i : Instr) (s : State) : State :=
  match i with
  | .kderive => { s with kvalid := true }
  | .encblk => { s with rvalid := true }
  | .decblk => { s with rvalid := true }
  | .make => validateContainer s
  | .decrypt c => closeView c s.clen.toNat s
  | .clrerr => s

/-- How many blocks a command runs through the cipher: "of the order of 64 round steps for ENCBLK and DECBLK,
64 * BC(LEN) for MAKE, 64 * BCNT for DECRYPT, a constant for KDERIVE" (70_reset_and_hazards.md R241). -/
def engineTrips (i : Instr) (s : State) : Nat :=
  match i with
  | .kderive => 0
  | .encblk => 1
  | .decblk => 1
  | .make => blockCount s.len.toNat
  | .decrypt _ => s.bcnt.toNat
  | .clrerr => 0

/-- A whole command, engine step by engine step. -/
def engineRun (i : Instr) (s : State) : State :=
  engineClose i (repeated (engineTick i) (rounds * engineTrips i s) (engineOpen i s))

end Sys2Proof.Machine
end

