-- ==== Sys2Proof/Machine/Script.lean ====
section
/-! DEFINITION. Host scripts as inputs of the machine (30_encoding.md R97, R98). -/

namespace Sys2Proof.Machine

/-- The byte offset of a place from the block's base, the `<loc>` of a script (30_encoding.md R97). -/
def Loc.offset : Loc → Nat
  | .cmd => 0x000
  | .status => 0x004
  | .len => 0x008
  | .seed j => 0x010 + 4 * j.val
  | .key j => 0x020 + 4 * j.val
  | .v0 => 0x030
  | .v1 => 0x034
  | .resh => 0x038
  | .resl => 0x03C
  | .clen => 0x040
  | .bcnt => 0x044
  | .ckey j => 0x050 + 4 * j.val
  | .txt p => 0x1000 + p
  | .blk p => 0x2000 + p
  | .out c p => 0x10000 + 0x1000 * c.val + p

/-- `WR <loc>, <value>` (30_encoding.md R97). -/
def wr (l : Loc) (w : Word) : Input := .bus ⟨BitVec.ofNat 17 l.offset, 4, some w⟩

/-- `RD <loc>` (30_encoding.md R97). -/
def rd (l : Loc) : Input := .bus ⟨BitVec.ofNat 17 l.offset, 4, none⟩

/-- A command statement: `WR CMD, <command word>` (30_encoding.md R97). -/
def issue (i : Instr) : Input := wr .cmd (encode i)

/-- `WAIT` in a run in which `k` reads of STATUS find BUSY = 1, then the engine completes and the next read finds
BUSY = 0 (30_encoding.md R97; how many reads find BUSY = 1 is not fixed, 95 part 3; log 19). -/
def wait (k : Nat) : List Input := List.replicate k (rd .status) ++ [.engine, rd .status]

/-- `SEEDS s0, s1, s2, s3` (30_encoding.md R98). -/
def seedsScript (k : Key) : List Input :=
  [wr (.seed 0) k[0], wr (.seed 1) k[1], wr (.seed 2) k[2], wr (.seed 3) k[3]]

/-- The byte `p` of a string, "bytes past the end of t taken as 0" (30_encoding.md R98). -/
def stringByte (t : List Byte) (p : Nat) : Nat := (t.getD p 0).toNat

/-- "the little-endian word of bytes 4w..4w+3 of t" (30_encoding.md R98). -/
def stringWord (t : List Byte) (w : Nat) : Word :=
  BitVec.ofNat 32
    (stringByte t (4 * w) + stringByte t (4 * w + 1) * 2 ^ 8 + stringByte t (4 * w + 2) * 2 ^ 16 +
      stringByte t (4 * w + 3) * 2 ^ 24)

/-- `TEXT "t"`: LEN, then `ceil(L/4)` words of TXT (30_encoding.md R98). -/
def textScript (t : List Byte) : List Input :=
  wr .len (BitVec.ofNat 32 (t.length + 1)) ::
    (List.range ((t.length + 3) / 4)).map fun w => wr (.txt (4 * w)) (stringWord t w)

/-- `make "t", s0, s1, s2, s3`; with no seeds the SEED registers keep their values (30_encoding.md R98). -/
def makeScript (t : List Byte) (seeds : Option Key) (k : Nat) : List Input :=
  (match seeds with
    | some s => seedsScript s
    | none => []) ++ textScript t ++ [issue .make] ++ wait k

/-- `decrypt c`, for a container of length `n` = CLEN (30_encoding.md R98). -/
def decryptScript (c n k : Nat) : List Input :=
  [issue (.decrypt c)] ++ wait k ++
    (List.range ((n + 3) / 4)).map fun w => rd (.out (Fin.ofNat 16 c) (4 * w))

/-- `encrypt_block v0, v1` (30_encoding.md R98). -/
def encryptBlockScript (v0 v1 : Word) (k : Nat) : List Input :=
  [wr .v0 v0, wr .v1 v1, issue .encblk] ++ wait k ++ [rd .resh, rd .resl]

/-- `decrypt_block v0, v1` (30_encoding.md R98). -/
def decryptBlockScript (v0 v1 : Word) (k : Nat) : List Input :=
  [wr .v0 v0, wr .v1 v1, issue .decblk] ++ wait k ++ [rd .resh, rd .resl]

/-- `derive s0, s1, s2, s3` (30_encoding.md R98). -/
def deriveScript (s : Key) (k : Nat) : List Input := seedsScript s ++ [issue .kderive] ++ wait k

end Sys2Proof.Machine
end

