-- ==== Sys2Proof/Safety.lean ====
section
/-! DEFINITION. The states a machine with legal parameters can be in: the invariant every step keeps and every
reset establishes (10_state.md R26 to R34, 20_memory.md R60, 43_system.md R192, 60_exceptions.md R206). -/

namespace Sys2Proof.Machine

/-- The memories have their canonical form and hold only addresses that exist: TXT `NMAX` bytes, BLK `8 * BMAX`
bytes, OUT[c] `NMAX` bytes for `c < NCTX` and no bank beyond (20_memory.md R60). -/
def memoriesOk (s : State) : Bool :=
  Memory.wf s.txt && Memory.within s.params.nmax s.txt &&
    Memory.wf s.blk && Memory.within (8 * s.params.bmax) s.blk &&
    (List.finRange 16).all fun c =>
      Memory.wf (s.out[c.val]) && Memory.within (if c.val < s.params.nctx then s.params.nmax else 0) (s.out[c.val])

/-- The conditions under which a command was accepted still hold (43_system.md R192: "their conditions were tested
in step 4 of rule R190 and the state they read cannot change while BUSY = 1"). -/
def stillAdmitted (i : Instr) (s : State) : Bool :=
  match i with
  | .kderive => true
  | .encblk => s.kvalid
  | .decblk => s.kvalid
  | .make => supported s.params s.len.toNat
  | .decrypt c => decide (c < s.params.nctx) && s.cvalid
  | .clrerr => false

/-- While BUSY = 1, OP holds one of the five commands of 43_system.md R192 and its conditions hold. -/
def commandOk (s : State) : Bool :=
  match inProgress s with
  | some i => stillAdmitted i s
  | none => false

/-- The container slot of 10_state.md R26 under CVALID = 1: a supported CLEN and BCNT = `BC(CLEN)`. -/
def containerOk (s : State) : Bool :=
  supported s.params s.clen.toNat && decide (s.bcnt.toNat = blockCount s.clen.toNat)

/-- The invariant. ERR is at most 7 (60_exceptions.md R201), OVALID has no bit at or above NCTX (10_state.md R27),
BUSY and DONE are never both 1 (R29), a busy engine has an admitted command, a valid container is whole. -/
def State.inv (s : State) : Bool :=
  s.params.wf && memoriesOk s && decide (s.err.toNat ≤ 7) && decide (s.ovalid.toNat < 2 ^ s.params.nctx) &&
    !(s.busy && s.done) && (!s.busy || commandOk s) && (!s.cvalid || containerOk s)

/-! ### Which agent moves next, in the terms the claims use -/

/-- The next thing to happen is a reset. -/
def State.resets (s : State) : Prop := s.inputs.head? = some .reset

/-- The next thing to happen is the completion of the command whose opcode is `opc` (43_system.md R192). -/
def State.completes (s : State) (opc : BitVec 8) : Prop :=
  s.busy = true ∧ s.op = opc ∧ (s.inputs = [] ∨ s.inputs.head? = some .engine)

/-- The next thing to happen is the host's write to CMD, the engine idle, of a command other than CLRERR
(43_system.md R190). -/
def State.issues (s : State) : Prop :=
  s.busy = false ∧ ∃ w i, s.inputs.head? = some (commandWrite w) ∧ decode w = .ok i ∧ i ≠ .clrerr

/-- The next thing to happen is an aligned 32-bit host write to the byte offset `off`, the engine idle. -/
def State.hostWrites (s : State) (off : Nat) : Prop :=
  s.busy = false ∧ ∃ a w, s.inputs.head? = some (.bus ⟨a, 4, some w⟩) ∧ a.toNat = off

end Sys2Proof.Machine
end

