-- ==== Sys2Proof/Certificates/Slice0/Obligations.lean ====
section
/-! DEFINITION. The statements for the provers, from the numbered rules of spec/. -/

open Sys2Proof Sys2Proof.Machine

/-! ### Encoding -/

/-- 30_encoding.md R91, R92, R94: a word decodes to a command exactly if the command fits its encoding and the word
is its command word. -/
def Obligations.DecodeInvertsEncode : Prop :=
  ∀ (w : Word) (i : Instr), decode w = .ok i ↔ (i.wf = true ∧ encode i = w)

/-- 30_encoding.md R95: which words are illegal, and that one is refused with ERR_OPCODE, code 1, and changes
nothing else. -/
def Obligations.IllegalWordsAreThoseListed : Prop :=
  (∀ w : Word, (∃ e, decode w = .error e) ↔
    (w.extractLsb' 12 20 ≠ 0#20 ∨
      w.extractLsb' 0 8 ∉ [0x01#8, 0x02#8, 0x03#8, 0x04#8, 0x05#8, 0x0F#8] ∨
      (w.extractLsb' 0 8 ∈ [0x01#8, 0x02#8, 0x03#8, 0x04#8, 0x0F#8] ∧ w.extractLsb' 8 4 ≠ 0#4))) ∧
  (∃ e, decode 0 = .error e) ∧
  ∀ (s : State) (w : Word) (e : Illegal) (rest : List Input),
    s.inputs = commandWrite w :: rest → s.busy = false → decode w = .error e →
      step s = .next { advance rest s with err := if s.err = 0 then 1 else s.err }

/-- Words written out from 30_encoding.md R92 decode to the commands they stand for, and words of R95 to none. -/
def Obligations.SpecWordsDecode : Prop :=
  decode 0x00000001 = .ok .kderive ∧ decode 0x00000002 = .ok .encblk ∧ decode 0x00000003 = .ok .decblk ∧
  decode 0x00000004 = .ok .make ∧ decode 0x00000305 = .ok (.decrypt 3) ∧ decode 0x00000F05 = .ok (.decrypt 15) ∧
  decode 0x0000000F = .ok .clrerr ∧ decode 0x00000102 = .error .contextBits ∧
  decode 0x00001005 = .error .reservedBits ∧ decode 0x00000006 = .error .opcode

/-! ### The step -/

/-- A CMD write of a word that decodes to `i`, the engine idle, is `exec i` with the input taken off. -/
def Obligations.StepRunsTheWrittenCommand : Prop :=
  ∀ (s : State) (w : Word) (i : Instr) (rest : List Input),
    s.inputs = commandWrite w :: rest → s.busy = false → decode w = .ok i →
      step s = exec i (advance rest s)

/-- While BUSY = 1 the engine's turn is `exec` of the command OP (and CTXL) holds; with no input left it is the
engine's turn (the model's choice, log 16). -/
def Obligations.StepCompletesTheLatchedCommand : Prop :=
  ∀ (s : State) (i : Instr) (rest : List Input),
    (s.inputs = .engine :: rest ∨ (s.inputs = [] ∧ rest = [])) → s.busy = true →
    ((s.op = 0x01 ∧ i = .kderive) ∨ (s.op = 0x02 ∧ i = .encblk) ∨ (s.op = 0x03 ∧ i = .decblk) ∨
      (s.op = 0x04 ∧ i = .make) ∨ (s.op = 0x05 ∧ i = .decrypt s.ctxl.toNat)) →
      step s = exec i (advance rest s)

/-- 43_system.md R190, the whole sequence, with the codes of 60_exceptions.md R201. -/
def Obligations.CommandWriteSequence : Prop :=
  ∀ (s : State) (w : Word) (rest : List Input),
    s.inputs = commandWrite w :: rest →
    let s0 := advance rest s
    let accepted : State :=
      { s0 with op := w.extractLsb' 0 8, ctxl := w.extractLsb' 8 4, busy := true, done := false }
    step s = .next
      (if s.busy = true then (if s.err = 0 then { s0 with err := 2 } else s0)
       else if decode w = .ok .clrerr then { s0 with err := 0 }
       else if s.err ≠ 0 then s0
       else
         match decode w with
         | .error _ => { s0 with err := 1 }
         | .ok .kderive => accepted
         | .ok .encblk => if s.kvalid = false then { s0 with err := 4 } else accepted
         | .ok .decblk => if s.kvalid = false then { s0 with err := 4 } else accepted
         | .ok .make => if supported s.params s.len.toNat = false then { s0 with err := 3 } else accepted
         | .ok (.decrypt c) =>
           if c ≥ s.params.nctx then { s0 with err := 6 }
           else if s.cvalid = false then { s0 with err := 5 }
           else accepted
         | .ok .clrerr => s0)

/-! ### Key derivation -/

/-- 40_key_derivation.md R110: the permutation and its inverse. -/
def Obligations.KeyDerivationIsThePermutation : Prop :=
  ∀ s k : Key,
    keyDerive s = #v[s[2], s[0], s[3], s[1]] ∧
    (keyDerive s = k ↔ s = #v[k[1], k[3], k[0], k[2]])

/-- 40_key_derivation.md R113: the word, the acceptance and the completion of KDERIVE. That the scratch registers
hold fresh free values after the completion is the model's choice (log 7). -/
def Obligations.KderiveLoadsThePermutedSeed : Prop :=
  encode .kderive = 0x00000001 ∧
  (∀ s : State, s.busy = false →
    exec .kderive s =
      .next (if s.err = 0 then { s with op := 0x01, ctxl := 0, busy := true, done := false } else s)) ∧
  ∀ s : State, s.busy = true → s.op = 0x01 →
    exec .kderive s = .next
      { s with
        key := #v[s.seed[2], s.seed[0], s.seed[3], s.seed[1]]
        kvalid := true, busy := false, done := true
        scratch := Scratch.idle s.draws, draws := s.draws + 1 }

/-! ### The block cipher -/

/-- 41_block_cipher.md R122. -/
def Obligations.FeistelFunctionValue : Prop :=
  (∀ x sum ka kb : Word,
    feistel x sum ka kb = ((x <<< 4) + ka) ^^^ (x + sum) ^^^ ((x >>> 5) + kb)) ∧
  feistel 0x00000002 0x9E3779B9 3 1 = 0x9E377999

/-- 41_block_cipher.md R123: `sum` is advanced first, `v0` uses the old `v1`, `v1` uses the new `v0`. -/
def Obligations.EncryptionRoundValue : Prop :=
  (∀ (k : Key) (v0 v1 sum v0' v1' sum' : Word),
    encRound k ⟨v0, v1, sum⟩ = ⟨v0', v1', sum'⟩ ↔
      (sum' = sum + 0x9E3779B9 ∧ v0' = v0 + feistel v1 sum' k[0] k[1] ∧
        v1' = v1 + feistel v0' sum' k[2] k[3])) ∧
  encRound #v[3, 1, 4, 2] ⟨1, 2, 0⟩ = ⟨0x9E37799A, 0xDBE8D13B, 0x9E3779B9⟩

/-- 41_block_cipher.md R124: the values of a decryption round, and that it undoes an encryption round. -/
def Obligations.DecryptionRoundUndoesEncryptionRound : Prop :=
  (∀ (k : Key) (v0 v1 sum v0' v1' sum' : Word),
    decRound k ⟨v0, v1, sum⟩ = ⟨v0', v1', sum'⟩ ↔
      (v1' = v1 - feistel v0 sum k[2] k[3] ∧ v0' = v0 - feistel v1' sum k[0] k[1] ∧
        sum' = sum - 0x9E3779B9)) ∧
  (∀ (k : Key) (r : RoundState), decRound k (encRound k r) = r) ∧
  decRound #v[3, 1, 4, 2] ⟨0x9E37799A, 0xDBE8D13B, 0x9E3779B9⟩ = ⟨1, 2, 0⟩

/-- 41_block_cipher.md R125: 64 rounds from `sum = 0` end with `INITSUM`, 64 rounds back from `INITSUM` end with 0,
and the results are the packed halves. -/
def Obligations.BlockFunctionsRunSixtyFourRounds : Prop :=
  ∀ (v0 v1 : Word) (k : Key),
    (∃ w0 w1, repeated (encRound k) 64 ⟨v0, v1, 0⟩ = ⟨w0, w1, 0x8DDE6E40⟩ ∧ enc v0 v1 k = packBlock w0 w1) ∧
    (∃ w0 w1, repeated (decRound k) 64 ⟨v0, v1, 0x8DDE6E40⟩ = ⟨w0, w1, 0⟩ ∧ dec v0 v1 k = packBlock w0 w1)

/-- 41_block_cipher.md R127: for any key and any block, decryption undoes encryption, and the converse. -/
def Obligations.DecryptionInvertsEncryption : Prop :=
  ∀ (v0 v1 : Word) (k : Key),
    (let b := enc v0 v1 k
     dec (blockHi b) (blockLo b) k = packBlock v0 v1) ∧
    (let b := dec v0 v1 k
     enc (blockHi b) (blockLo b) k = packBlock v0 v1)

/-- 20_memory.md R64: packing and unpacking a block. -/
def Obligations.BlockPackingIsHighLow : Prop :=
  (∀ v0 v1 : Word, (packBlock v0 v1).toNat = v0.toNat * 2 ^ 32 + v1.toNat ∧
    blockHi (packBlock v0 v1) = v0 ∧ blockLo (packBlock v0 v1) = v1) ∧
  ∀ b : Block, packBlock (blockHi b) (blockLo b) = b

/-- 41_block_cipher.md R130: the word, the acceptance and the completion of ENCBLK. That the scratch registers hold
fresh free values after the completion is the model's choice (log 7). -/
def Obligations.EncblkEncryptsV0V1 : Prop :=
  encode .encblk = 0x00000002 ∧
  (∀ s : State, s.busy = false →
    exec .encblk s = .next
      (if s.err ≠ 0 then s
       else if s.kvalid = false then { s with err := 4 }
       else { s with op := 0x02, ctxl := 0, busy := true, done := false })) ∧
  ∀ s : State, s.busy = true → s.op = 0x02 →
    exec .encblk s = .next
      { s with
        res := enc s.v0 s.v1 s.key
        rvalid := true, busy := false, done := true
        scratch := Scratch.idle s.draws, draws := s.draws + 1 }

/-- 41_block_cipher.md R131: the word, the acceptance and the completion of DECBLK. That the scratch registers hold
fresh free values after the completion is the model's choice (log 7). -/
def Obligations.DecblkDecryptsV0V1 : Prop :=
  encode .decblk = 0x00000003 ∧
  (∀ s : State, s.busy = false →
    exec .decblk s = .next
      (if s.err ≠ 0 then s
       else if s.kvalid = false then { s with err := 4 }
       else { s with op := 0x03, ctxl := 0, busy := true, done := false })) ∧
  ∀ s : State, s.busy = true → s.op = 0x03 →
    exec .decblk s = .next
      { s with
        res := dec s.v0 s.v1 s.key
        rvalid := true, busy := false, done := true
        scratch := Scratch.idle s.draws, draws := s.draws + 1 }

/-- 41_block_cipher.md R127, R130, R131 on the registers: DECBLK of a completed ENCBLK's RES under the same key
gives back V0 and V1. -/
def Obligations.DecblkInvertsEncblk : Prop :=
  ∀ s u : State, s.busy = true → s.op = 0x02 → u.busy = true → u.op = 0x03 →
    ∃ t v, exec .encblk s = .next t ∧ exec .decblk u = .next v ∧
      (u.v0 = blockHi t.res → u.v1 = blockLo t.res → u.key = s.key →
        blockHi v.res = s.v0 ∧ blockLo v.res = s.v1)

/-! ### The container -/

/-- 42_container.md R150. -/
def Obligations.BlockCountBands : Prop :=
  (∀ n b : Nat, 1 ≤ n →
    blockCount n = (n - 1 + 7) / 8 ∧ (blockCount n = b ↔ 8 * b ≤ n + 6 ∧ n ≤ 8 * b + 1)) ∧
  ∀ (p : Params) (n i : Nat), p.wf = true → 1 ≤ n → n ≤ p.nmax → i < blockCount n →
    blockCount n ≤ 512 ∧ i * 5 ≤ 2555 ∧ scramble i (blockCount n) * 8 + 7 ≤ 4095

/-- 42_container.md R152: a permutation exactly if the block count is no multiple of 5; otherwise the image is the
multiples of 5 below it, each hit 5 times. -/
def Obligations.ScrambleIsBijectiveUnlessMultipleOfFive : Prop :=
  (∀ bc : Nat, 0 < bc →
    (((∀ i < bc, scramble i bc < bc) ∧ (∀ i < bc, ∀ j < bc, scramble i bc = scramble j bc → i = j) ∧
      ∀ j < bc, ∃ i < bc, scramble i bc = j) ↔ bc % 5 ≠ 0)) ∧
  (∀ bc : Nat, 0 < bc → bc % 5 = 0 →
    ∀ j : Nat, ((List.range bc).filter fun i => decide (scramble i bc = j)).length =
      if j < bc ∧ j % 5 = 0 then 5 else 0) ∧
  (List.range 5).map (fun i => scramble i 5) = [0, 0, 0, 0, 0] ∧
  (List.range 10).map (fun i => scramble i 10) = [0, 5, 0, 5, 0, 5, 0, 5, 0, 5]

/-- 42_container.md R153: the supported lengths, the guarded ones as the bands `[40m - 6, 40m + 1]`; MAKE accepts
them and refuses every other with ERR_LEN, code 3. -/
def Obligations.SupportedLengthsSkipTheBands : Prop :=
  (∀ (p : Params) (n : Nat),
    supported p n = true ↔
      1 ≤ n ∧ n ≤ p.nmax ∧ (p.guard5 = false ∨ ¬ ∃ m : Nat, 1 ≤ m ∧ 40 * m ≤ n + 6 ∧ n ≤ 40 * m + 1)) ∧
  ∀ s : State, s.busy = false → s.err = 0 →
    exec .make s = .next
      (if supported s.params s.len.toNat = true then { s with op := 0x04, ctxl := 0, busy := true, done := false }
       else { s with err := 3 })

/-- 42_container.md R156: the word, the acceptance and the completion of MAKE, for every length that TXT holds
(GUARD5 true or false): the entries it visits, their values, and everything it leaves alone. That the scratch
registers hold fresh free values after the completion is the model's choice (log 7). -/
def Obligations.MakeBuildsTheContainer : Prop :=
  encode .make = 0x00000004 ∧
  (∀ s : State, s.busy = false →
    exec .make s = .next
      (if s.err ≠ 0 then s
       else if supported s.params s.len.toNat = false then { s with err := 3 }
       else { s with op := 0x04, ctxl := 0, busy := true, done := false })) ∧
  ∀ s : State, s.busy = true → s.op = 0x04 → s.params.wf = true →
    1 ≤ s.len.toNat → s.len.toNat ≤ s.params.nmax →
    let n := s.len.toNat
    let bc := (n + 6) / 8
    let k : Key := #v[s.seed[2], s.seed[0], s.seed[3], s.seed[1]]
    ∃ t, exec .make s = .next t ∧
      t = { s with
            ckey := k, clen := s.len, bcnt := BitVec.ofNat 32 bc, blk := t.blk
            cvalid := true, busy := false, done := true
            scratch := Scratch.idle s.draws, draws := s.draws + 1 } ∧
      (∀ i < bc, ∀ j, j = (i * 5) % bc →
        blkEntry j t = enc (pack32LE n (8 * j) s) (pack32LE n (8 * j + 4) s) k) ∧
      (∀ a, (¬ ∃ i < bc, (i * 5) % bc = a / 8) → readByte .blk a t = readByte .blk a s) ∧
      (∀ a, readByte .txt a t = readByte .txt a s) ∧
      ∀ c a, readByte (.out c) a t = readByte (.out c) a s

/-- 42_container.md R159: after a MAKE whose block count is no positive multiple of 5, every entry is the
encryption of the chunk at its own index. -/
def Obligations.EveryEntryEncryptsItsOwnChunk : Prop :=
  ∀ s : State, s.busy = true → s.op = 0x04 → s.params.wf = true →
    supported s.params s.len.toNat = true →
    (blockCount s.len.toNat % 5 ≠ 0 ∨ blockCount s.len.toNat = 0) →
    ∃ t, exec .make s = .next t ∧
      ∀ j < blockCount s.len.toNat,
        blkEntry j t =
          enc (pack32LE s.len.toNat (8 * j) s) (pack32LE s.len.toNat (8 * j + 4) s) t.ckey

/-- 42_container.md R164, GUARD5 false and the block count a positive multiple of 5: MAKE and DECRYPT touch only the
entries and chunks whose index is a multiple of 5, the rest keeps what it held, the terminator is written. -/
def Obligations.CollapseWithoutGuard : Prop :=
  ∀ s : State, s.params.wf = true → s.params.guard5 = false →
    (s.busy = true → s.op = 0x04 → supported s.params s.len.toNat = true →
      0 < blockCount s.len.toNat → blockCount s.len.toNat % 5 = 0 →
      ∃ t, exec .make s = .next t ∧
        ∀ j < blockCount s.len.toNat,
          blkEntry j t =
            if j % 5 = 0 then
              enc (pack32LE s.len.toNat (8 * j) s) (pack32LE s.len.toNat (8 * j + 4) s) t.ckey
            else blkEntry j s) ∧
    (s.busy = true → s.op = 0x05 → s.ctxl.toNat < s.params.nctx →
      supported s.params s.clen.toNat = true → s.bcnt.toNat = blockCount s.clen.toNat →
      0 < blockCount s.clen.toNat → blockCount s.clen.toNat % 5 = 0 →
      ∃ t, exec (.decrypt s.ctxl.toNat) s = .next t ∧
        readByte (outSpace s.ctxl.toNat) (s.clen.toNat - 1) t = 0 ∧
        ∀ p < s.clen.toNat - 1, p / 8 % 5 ≠ 0 →
          readByte (outSpace s.ctxl.toNat) p t = readByte (outSpace s.ctxl.toNat) p s)

/-- 42_container.md R157: the words, the acceptance and the completion of DECRYPT c: the bytes it writes, their
values, and everything it leaves alone, the other contexts among it (20_memory.md R78). That the scratch registers
hold fresh free values after the completion is the model's choice (log 7). -/
def Obligations.DecryptWritesTheView : Prop :=
  (∀ c < 16, encode (.decrypt c) = BitVec.ofNat 32 (0x00000005 + c * 0x100)) ∧
  (∀ (s : State) (c : Nat), c < 16 → s.busy = false →
    exec (.decrypt c) s = .next
      (if s.err ≠ 0 then s
       else if c ≥ s.params.nctx then { s with err := 6 }
       else if s.cvalid = false then { s with err := 5 }
       else { s with op := 0x05, ctxl := BitVec.ofNat 4 c, busy := true, done := false })) ∧
  ∀ (s : State) (c : Nat), s.busy = true → s.op = 0x05 → s.ctxl.toNat = c → c < s.params.nctx →
    1 ≤ s.clen.toNat → s.clen.toNat ≤ s.params.nmax → s.bcnt.toNat ≤ s.params.bmax →
    let n := s.clen.toNat
    let bc := s.bcnt.toNat
    ∃ t, exec (.decrypt c) s = .next t ∧
      t = { s with
            out := t.out, ovalid := s.ovalid ||| (1#16 <<< c)
            busy := false, done := true
            scratch := Scratch.idle s.draws, draws := s.draws + 1 } ∧
      (∀ d : Fin 16, d.val ≠ c → t.out[d.val] = s.out[d.val]) ∧
      (∀ p, readByte (outSpace c) p t =
        if p = n - 1 then 0
        else if p < n - 1 ∧ ∃ i < bc, (i * 5) % bc = p / 8 then
          (let b := blkEntry (p / 8) s
           let r := dec (blockHi b) (blockLo b) s.ckey
           if p % 8 < 4 then (blockHi r >>> (8 * (p % 8))).setWidth 8
           else (blockLo r >>> (8 * (p % 8 - 4))).setWidth 8)
        else readByte (outSpace c) p s) ∧
      (∀ a, readByte .txt a t = readByte .txt a s) ∧
      (∀ a, readByte .blk a t = readByte .blk a s) ∧
      ∀ (d : Fin 16) (a : Nat), d.val ≠ c → readByte (.out d) a t = readByte (.out d) a s

/-- 42_container.md R161: DECRYPT of the container a MAKE built gives back the text as it was at the MAKE, and the
terminator, in every context and for every seed. -/
def Obligations.EndToEndRoundTrip : Prop :=
  ∀ s u : State, s.params.wf = true →
    s.busy = true → s.op = 0x04 → supported s.params s.len.toNat = true →
    (blockCount s.len.toNat % 5 ≠ 0 ∨ blockCount s.len.toNat = 0) →
    u.busy = true → u.op = 0x05 → u.params = s.params → u.ctxl.toNat < s.params.nctx →
    ∃ t, exec .make s = .next t ∧
      (u.clen = t.clen → u.bcnt = t.bcnt → u.ckey = t.ckey →
        (∀ a, readByte .blk a u = readByte .blk a t) →
        ∃ v, exec (.decrypt u.ctxl.toNat) u = .next v ∧
          (∀ p < s.len.toNat - 1, readByte (outSpace u.ctxl.toNat) p v = readByte .txt p s) ∧
          readByte (outSpace u.ctxl.toNat) (s.len.toNat - 1) v = 0)

/-- 42_container.md R162: MAKE is a pure function of LEN, SEED and TXT[0 .. LEN-2]. -/
def Obligations.MakeIsDeterministic : Prop :=
  ∀ s u : State, s.params.wf = true → u.params.wf = true →
    s.busy = true → s.op = 0x04 → supported s.params s.len.toNat = true →
    u.busy = true → u.op = 0x04 → supported u.params u.len.toNat = true →
    s.len = u.len → s.seed = u.seed →
    (∀ p < s.len.toNat - 1, readByte .txt p s = readByte .txt p u) →
    (blockCount s.len.toNat % 5 ≠ 0 ∨ blockCount s.len.toNat = 0) →
    ∃ t v, exec .make s = .next t ∧ exec .make u = .next v ∧
      t.clen = v.clen ∧ t.bcnt = v.bcnt ∧ t.ckey = v.ckey ∧
      ∀ j < blockCount s.len.toNat, blkEntry j t = blkEntry j v

/-- 20_memory.md R65: byte `k` of a chunk word is the text byte at its position below `n - 1` and 0 from there on. -/
def Obligations.ChunkWordsAreLittleEndianAndPadded : Prop :=
  ∀ (n off k : Nat) (s : State), k < 4 →
    (pack32LE n off s >>> (8 * k)).setWidth 8 =
      if off + k < n - 1 then readByte .txt (off + k) s else 0#8

/-- 20_memory.md R66: `OutChunk` puts byte `k` of the chunk at position `off + k` below `n - 1` and writes nothing
else. -/
def Obligations.OutChunkUnpacksLittleEndian : Prop :=
  ∀ (c : Fin 16) (n off : Nat) (v0 v1 : Word) (s : State),
    (∀ p, readByte (.out c) p (outChunk (.out c) n off v0 v1 s) =
      if off ≤ p ∧ p < off + 8 ∧ p < n - 1 then
        (if p - off < 4 then (v0 >>> (8 * (p - off))).setWidth 8 else (v1 >>> (8 * (p - off - 4))).setWidth 8)
      else readByte (.out c) p s) ∧
    ∀ (sp : Space) (a : Nat), sp ≠ .out c →
      readByte sp a (outChunk (.out c) n off v0 v1 s) = readByte sp a s

/-! ### CLRERR and refusals -/

/-- 43_system.md R191: the only word of CLRERR, and its effect, idle and busy. -/
def Obligations.ClrerrClearsErr : Prop :=
  (∀ w : Word, decode w = .ok .clrerr ↔ w = 0x0000000F) ∧
  (∀ s : State, s.busy = false → exec .clrerr s = .next { s with err := 0 }) ∧
  ∀ s : State, s.busy = true → exec .clrerr s = .next { s with err := if s.err = 0 then 2 else s.err }

/-- 60_exceptions.md R205, R202: what a refusal records. -/
def Obligations.RefusalRecordsTheFirstCode : Prop :=
  ∀ (c : ErrCode) (s : State),
    (s.err = 0 → refuse c s = { s with err := c.code }) ∧ (s.err ≠ 0 → refuse c s = s) ∧
    c.code = (match c with
      | .opcode => 1
      | .busy => 2
      | .len => 3
      | .noKey => 4
      | .noCont => 5
      | .ctx => 6
      | .bus => 7)

/-- 10_state.md R33: ERR is 0 after reset; while it is not 0 only CLRERR and reset change it, to 0, and every CMD
write but CLRERR has no effect. -/
def Obligations.ErrIsStickyAndFirstWins : Prop :=
  (∀ s t : State, step s = .next t → s.resets → t.err = 0) ∧
  (∀ (s : State) (rest : List Input), s.busy = false → s.inputs = commandWrite 0x0000000F :: rest →
    step s = .next { advance rest s with err := 0 }) ∧
  (∀ s t : State, step s = .next t → s.err ≠ 0 →
    t.err = s.err ∨ (t.err = 0 ∧
      (s.resets ∨ (s.busy = false ∧ s.inputs.head? = some (commandWrite 0x0000000F))))) ∧
  ∀ (s : State) (w : Word) (rest : List Input), s.err ≠ 0 → s.busy = false →
    s.inputs = commandWrite w :: rest → w ≠ 0x0000000F → step s = .next (advance rest s)

/-! ### The bus -/

/-- 10_state.md R41: an idle read of a register offset returns the register (CMD reads 0) and changes nothing. -/
def Obligations.RegisterReadsReturnTheRegister : Prop :=
  ∀ (s : State) (off : BitVec 17) (v : Word) (rest : List Input),
    (off, v) ∈
      [(0x000#17, 0#32), (0x004, statusWord s), (0x008, s.len),
       (0x010, s.seed[0]), (0x014, s.seed[1]), (0x018, s.seed[2]), (0x01C, s.seed[3]),
       (0x020, s.key[0]), (0x024, s.key[1]), (0x028, s.key[2]), (0x02C, s.key[3]),
       (0x030, s.v0), (0x034, s.v1),
       (0x038, s.res.extractLsb' 32 32), (0x03C, s.res.extractLsb' 0 32),
       (0x040, s.clen), (0x044, s.bcnt),
       (0x050, s.ckey[0]), (0x054, s.ckey[1]), (0x058, s.ckey[2]), (0x05C, s.ckey[3])] →
    s.busy = false → s.inputs = .bus ⟨off, 4, none⟩ :: rest →
      step s = .next { advance rest s with reply := some v }

/-- 10_state.md R27: the layout of STATUS; a read of it is exact and has no side effect, busy or idle; a write of it,
the engine idle, is refused. -/
def Obligations.StatusReadsExactly : Prop :=
  (∀ (s : State) (rest : List Input), s.inputs = .bus ⟨0x004, 4, none⟩ :: rest →
    ∃ w : Word, step s = .next { advance rest s with reply := some w } ∧
      w.getLsbD 0 = s.busy ∧ w.getLsbD 1 = s.done ∧ w.getLsbD 2 = s.kvalid ∧ w.getLsbD 3 = s.cvalid ∧
      w.getLsbD 4 = s.rvalid ∧ w.extractLsb' 5 3 = 0#3 ∧ w.extractLsb' 8 4 = s.err ∧
      w.extractLsb' 12 4 = 0#4 ∧ (∀ c < 16, w.getLsbD (16 + c) = s.ovalid.getLsbD c) ∧
      (s.inv = true → ∀ c, s.params.nctx ≤ c → c < 16 → w.getLsbD (16 + c) = false)) ∧
  ∀ (s : State) (w : Word) (rest : List Input), s.busy = false → s.inputs = .bus ⟨0x004, 4, some w⟩ :: rest →
    step s = .next { advance rest s with err := if s.err = 0 then 7 else s.err }

/-- 10_state.md R21, R23, R25: an idle write of LEN, SEED, V0 or V1 stores all 32 bits and nothing else. -/
def Obligations.RegisterWritesStore : Prop :=
  ∀ (s : State) (w : Word) (off : BitVec 17) (rest : List Input),
    s.busy = false → s.inputs = .bus ⟨off, 4, some w⟩ :: rest →
    (off = 0x008 → step s = .next { advance rest s with len := w }) ∧
    (off = 0x010 → step s = .next { advance rest s with seed := #v[w, s.seed[1], s.seed[2], s.seed[3]] }) ∧
    (off = 0x014 → step s = .next { advance rest s with seed := #v[s.seed[0], w, s.seed[2], s.seed[3]] }) ∧
    (off = 0x018 → step s = .next { advance rest s with seed := #v[s.seed[0], s.seed[1], w, s.seed[3]] }) ∧
    (off = 0x01C → step s = .next { advance rest s with seed := #v[s.seed[0], s.seed[1], s.seed[2], w] }) ∧
    (off = 0x030 → step s = .next { advance rest s with v0 := w }) ∧
    (off = 0x034 → step s = .next { advance rest s with v1 := w })

/-- 20_memory.md R71 (with 10_state.md R41, R42 and 20_memory.md R67, R70): every refused access, idle, records
ERR_BUS, code 7, if ERR is 0 and changes nothing else; a read returns 0. A read of CMD is not refused. While BUSY = 1
a write records ERR_BUSY and a read records nothing. -/
def Obligations.RefusedBusAccesses : Prop :=
  ∀ (s : State) (a : Access) (rest : List Input), s.inputs = .bus a :: rest →
    let off := a.addr.toNat
    let s0 := advance rest s
    let code7 := if s.err = 0 then 7 else s.err
    let reserved :=
      off = 0x00C ∨ off = 0x048 ∨ off = 0x04C ∨ (0x060 ≤ off ∧ off < 0x1000) ∨
      (0x1000 + s.params.nmax ≤ off ∧ off < 0x2000) ∨
      (0x2000 + 8 * s.params.bmax ≤ off ∧ off < 0x10000) ∨
      (0x10000 ≤ off ∧ (s.params.nctx ≤ (off - 0x10000) / 0x1000 ∨ s.params.nmax ≤ (off - 0x10000) % 0x1000))
    let readOnly :=
      off = 0x004 ∨ (0x020 ≤ off ∧ off < 0x030) ∨ (0x038 ≤ off ∧ off < 0x048) ∨ (0x050 ≤ off ∧ off < 0x060) ∨
      (0x2000 ≤ off ∧ off < 0x10000) ∨ 0x10000 ≤ off
    let noWord := a.bytes ≠ 4 ∨ off % 4 ≠ 0
    (s.busy = false → a.data = none → (noWord ∨ reserved) →
      step s = .next { s0 with err := code7, reply := some 0 }) ∧
    (s.busy = false → a.data ≠ none → (noWord ∨ reserved ∨ readOnly) →
      step s = .next { s0 with err := code7 }) ∧
    (s.busy = false → a.data = none → a.bytes = 4 → off = 0 → step s = .next { s0 with reply := some 0 }) ∧
    (s.busy = true → a.data ≠ none → step s = .next { s0 with err := if s.err = 0 then 2 else s.err }) ∧
    (s.busy = true → a.data = none → ∃ t, step s = .next t ∧ t.err = s.err)

/-- 10_state.md R39, R40: while BUSY = 1 STATUS reads exactly, CMD reads 0, any other read returns some value and has
no effect, and every write is ignored but for ERR. -/
def Obligations.AccessWhileBusy : Prop :=
  ∀ (s : State) (a : Access) (rest : List Input), s.busy = true → s.inputs = .bus a :: rest →
    (a.data = none → a.bytes = 4 → a.addr = 0x004 →
      step s = .next { advance rest s with reply := some (statusWord s) }) ∧
    (a.data = none → a.bytes = 4 → a.addr = 0x000 → step s = .next { advance rest s with reply := some 0 }) ∧
    (a.data = none → a.addr ≠ 0x004 → a.addr ≠ 0x000 →
      ∃ v, step s = .next { advance rest s with reply := some v, draws := s.draws + 1 }) ∧
    (a.data ≠ none → step s = .next { advance rest s with err := if s.err = 0 then 2 else s.err })

/-- 20_memory.md R68: the TXT window, read and written, little-endian, the write storing exactly four bytes. -/
def Obligations.TxtWindowIsLittleEndian : Prop :=
  ∀ (s : State) (p : Nat) (rest : List Input), s.params.wf = true → s.busy = false →
    p % 4 = 0 → p < s.params.nmax →
    (∀ w : Word, s.inputs = .bus ⟨BitVec.ofNat 17 (0x1000 + p), 4, some w⟩ :: rest →
      ∃ t, step s = .next t ∧ t = { advance rest s with txt := t.txt } ∧
        (∀ j < 4, readByte .txt (p + j) t = (w >>> (8 * j)).setWidth 8) ∧
        (∀ a, (a < p ∨ p + 4 ≤ a) → readByte .txt a t = readByte .txt a s) ∧
        ∀ (sp : Space) (a : Nat), sp ≠ .txt → readByte sp a t = readByte sp a s) ∧
    (s.inputs = .bus ⟨BitVec.ofNat 17 (0x1000 + p), 4, none⟩ :: rest →
      ∃ w : Word, step s = .next { advance rest s with reply := some w } ∧
        ∀ j < 4, (w >>> (8 * j)).setWidth 8 = readByte .txt (p + j) s)

/-- 20_memory.md R68: the OUT windows, read-only, little-endian. -/
def Obligations.OutWindowIsLittleEndian : Prop :=
  ∀ (s : State) (c : Fin 16) (p : Nat) (rest : List Input), s.params.wf = true → s.busy = false →
    c.val < s.params.nctx → p % 4 = 0 → p < s.params.nmax →
    s.inputs = .bus ⟨BitVec.ofNat 17 (0x10000 + 0x1000 * c.val + p), 4, none⟩ :: rest →
      ∃ w : Word, step s = .next { advance rest s with reply := some w } ∧
        ∀ j < 4, (w >>> (8 * j)).setWidth 8 = readByte (.out c) (p + j) s

/-- 20_memory.md R69: the BLK window, low word of an entry first. -/
def Obligations.BlkWindowIsLowWordFirst : Prop :=
  ∀ (s : State) (j : Nat) (rest : List Input), s.params.wf = true → s.busy = false → j < s.params.bmax →
    (s.inputs = .bus ⟨BitVec.ofNat 17 (0x2000 + 8 * j), 4, none⟩ :: rest →
      step s = .next { advance rest s with reply := some ((blkEntry j s).extractLsb' 0 32) }) ∧
    (s.inputs = .bus ⟨BitVec.ofNat 17 (0x2000 + 8 * j + 4), 4, none⟩ :: rest →
      step s = .next { advance rest s with reply := some ((blkEntry j s).extractLsb' 32 32) })

/-- 20_memory.md R68: for a word of a chunk that lies wholly inside the text, the packed word is the bus word at
its offset. -/
def Obligations.FullChunkWordIsTheBusWord : Prop :=
  ∀ (s : State) (n off : Nat) (rest : List Input), s.params.wf = true → s.busy = false →
    off % 4 = 0 → off + 4 ≤ n - 1 → n ≤ s.params.nmax →
    s.inputs = .bus ⟨BitVec.ofNat 17 (0x1000 + off), 4, none⟩ :: rest →
      step s = .next { advance rest s with reply := some (pack32LE n off s) }

/-- 30_encoding.md R97 against 10_state.md R41 and 20_memory.md R70: every place that exists is found at its
offset, and nothing else is. -/
def Obligations.OffsetsLocateThePlaces : Prop :=
  ∀ (p : Params) (off : Nat) (l : Loc), p.wf = true → off < 0x20000 →
    (locate p off = some l ↔ l.offset = off ∧
      match l with
      | .txt q => q < p.nmax
      | .blk q => q < 8 * p.bmax
      | .out c q => c.val < p.nctx ∧ q < p.nmax
      | _ => True)

/-! ### Memory -/

/-- 00_scope.md R16, 10_state.md R38: a read after a write of the same bytes returns the value, and a write leaves
every other byte and every other memory alone. -/
def Obligations.MemWriteThenMemRead : Prop :=
  ∀ (sp : Space) (a n v : Nat) (s : State),
    memRead sp a n (memWrite sp a n v s) = v % 256 ^ n ∧
    (∀ x, (x < a ∨ a + n ≤ x) → readByte sp x (memWrite sp a n v s) = readByte sp x s) ∧
    ∀ (sp' : Space) (x : Nat), sp' ≠ sp → readByte sp' x (memWrite sp a n v s) = readByte sp' x s

/-! ### Reset -/

/-- 10_state.md R43, 70_reset_and_hazards.md R231, R232: a reset, at any time, busy or not, gives the values R43
lists and abandons the command in progress. -/
def Obligations.ResetGivesTheListedValues : Prop :=
  ∀ (s : State) (rest : List Input), s.inputs = .reset :: rest →
    ∃ t, step s = .next t ∧ statusWord t = 0 ∧ t.len = 0 ∧ t.seed = s.params.defaultSeed ∧
      t.v0 = 0 ∧ t.v1 = 0 ∧ t.busy = false ∧ t.done = false ∧ t.kvalid = false ∧ t.cvalid = false ∧
      t.rvalid = false ∧ t.err = 0 ∧ t.ovalid = 0 ∧ t.params = s.params ∧ t.inputs = rest

/-- 10_state.md R43 at `State.reset`, for the default parameters of 00_scope.md R9, R10, R12; the engine is idle and
stays so until an input comes (the model's choice, log 17). -/
def Obligations.StartStateIsTheResetState : Prop :=
  State.reset.params.nmax = 256 ∧ State.reset.params.nctx = 4 ∧ State.reset.params.guard5 = true ∧
  State.reset.seed = State.reset.params.defaultSeed ∧ statusWord State.reset = 0 ∧ State.reset.len = 0 ∧
  State.reset.v0 = 0 ∧ State.reset.v1 = 0 ∧ step State.reset = .next State.reset

/-! ### The whole machine -/

/-- The reset state of every machine with legal parameters meets the invariant; `State.reset` is one of them. -/
def Obligations.InvariantHoldsAtReset : Prop :=
  State.reset.inv = true ∧
  ∀ (p : Params) (epoch draw : Nat), p.wf = true → (State.resetFor p epoch draw).inv = true

/-- Every step keeps the invariant (10_state.md R26 to R34, 20_memory.md R60, 43_system.md R192). -/
def Obligations.EveryStepKeepsTheInvariant : Prop :=
  ∀ s t : State, s.inv = true → step s = .next t → t.inv = true

/-- No step from a state that meets the invariant stops: an accepted command never fails and every request has an
outcome (42_container.md R163, 60_exceptions.md R200, R206). -/
def Obligations.NoStepStops : Prop :=
  ∀ s : State, s.inv = true → ∃ t, step s = .next t

/-- 10_state.md R20: who writes what. Every register, flag, memory and parameter changes only in the steps the table
allows: the engine's at reset and at the completion that writes them, OP and CTXL at reset and at command acceptance,
the host's at reset and by a host write, ERR at reset and by a bus transaction. That the scratch registers change at
a completion and at reset alone, a completion being one step, is the model's choice (log 7). -/
def Obligations.EachRegisterHasItsWriters : Prop :=
  ∀ s t : State, step s = .next t →
    t.params = s.params ∧
    (t.key ≠ s.key → s.resets ∨ s.completes 0x01) ∧
    (t.res ≠ s.res → s.resets ∨ s.completes 0x02 ∨ s.completes 0x03) ∧
    (t.clen ≠ s.clen ∨ t.bcnt ≠ s.bcnt ∨ t.ckey ≠ s.ckey ∨ t.blk ≠ s.blk → s.resets ∨ s.completes 0x04) ∧
    (∀ c : Fin 16, t.out[c.val] ≠ s.out[c.val] → s.resets ∨ (s.completes 0x05 ∧ c.val = s.ctxl.toNat)) ∧
    (t.len ≠ s.len → s.resets ∨ s.hostWrites 0x008) ∧
    (∀ j : Fin 4, t.seed[j.val] ≠ s.seed[j.val] → s.resets ∨ s.hostWrites (0x010 + 4 * j.val)) ∧
    (t.v0 ≠ s.v0 → s.resets ∨ s.hostWrites 0x030) ∧
    (t.v1 ≠ s.v1 → s.resets ∨ s.hostWrites 0x034) ∧
    (∀ p, readByte .txt p t ≠ readByte .txt p s →
      s.resets ∨ ∃ q, s.hostWrites (0x1000 + q) ∧ q < s.params.nmax ∧ q % 4 = 0 ∧ q ≤ p ∧ p < q + 4) ∧
    (t.op ≠ s.op ∨ t.ctxl ≠ s.ctxl → s.resets ∨ s.issues) ∧
    (t.busy ≠ s.busy ∨ t.done ≠ s.done → s.resets ∨ s.issues ∨ ∃ opc, s.completes opc) ∧
    (t.kvalid ≠ s.kvalid → s.resets ∨ s.completes 0x01) ∧
    (t.cvalid ≠ s.cvalid → s.resets ∨ s.completes 0x04) ∧
    (t.rvalid ≠ s.rvalid → s.resets ∨ s.completes 0x02 ∨ s.completes 0x03) ∧
    (t.ovalid ≠ s.ovalid → s.resets ∨ s.completes 0x05) ∧
    (t.err ≠ s.err → s.resets ∨ ∃ a, s.inputs.head? = some (.bus a)) ∧
    (t.scratch ≠ s.scratch → s.resets ∨ ∃ opc, s.completes opc)

/-- 10_state.md R30, R31, R32, R34: a valid flag is set by the completion of its command and cleared by reset
alone. -/
def Obligations.ValidFlagsAreSetByCompletionAndClearedByReset : Prop :=
  ∀ s t : State, step s = .next t →
    (t.kvalid = true ↔ ¬ s.resets ∧ (s.kvalid = true ∨ s.completes 0x01)) ∧
    (t.cvalid = true ↔ ¬ s.resets ∧ (s.cvalid = true ∨ s.completes 0x04)) ∧
    (t.rvalid = true ↔ ¬ s.resets ∧ (s.rvalid = true ∨ s.completes 0x02 ∨ s.completes 0x03)) ∧
    ∀ c < 16, (t.ovalid.getLsbD c = true ↔
      ¬ s.resets ∧ (s.ovalid.getLsbD c = true ∨ (s.completes 0x05 ∧ s.ctxl.toNat = c)))

/-- 10_state.md R28, R29: BUSY and DONE change together, at acceptance and at completion (and by reset), and by
nothing else. -/
def Obligations.BusyAndDoneChangeTogether : Prop :=
  ∀ s t : State, step s = .next t →
    (s.resets ∧ t.busy = false ∧ t.done = false) ∨
    (t.busy = s.busy ∧ t.done = s.done) ∨
    (s.busy = false ∧ t.busy = true ∧ t.done = false ∧
      ∃ w i, s.inputs.head? = some (commandWrite w) ∧ decode w = .ok i ∧ i ≠ .clrerr) ∨
    (s.busy = true ∧ t.busy = false ∧ t.done = true ∧ (s.inputs = [] ∨ s.inputs.head? = some .engine))

/-- 70_reset_and_hazards.md R242: a command in progress ends after finitely many steps, whatever the host does
meanwhile. That the engine moves when no input is left is the model's form of weak fairness (log 16). -/
def Obligations.EveryCommandTerminates : Prop :=
  ∀ s : State, s.inv = true → s.busy = true →
    ∃ k t, k ≤ s.inputs.length + 1 ∧ core.run k s = .next t ∧ t.busy = false

/-- 30_encoding.md R97, 43_system.md R193: a `WAIT` on a busy engine, however many of its reads find BUSY = 1 (log
19), ends with a STATUS read that shows BUSY = 0 and DONE = 1, ERR untouched. -/
def Obligations.WaitEndsWhenTheCommandCompletes : Prop :=
  ∀ (s : State) (k : Nat) (rest : List Input), s.inv = true → s.busy = true → s.inputs = wait k ++ rest →
    ∃ t w, core.run (k + 2) s = .next t ∧ t.inputs = rest ∧ t.busy = false ∧ t.done = true ∧
      t.err = s.err ∧ t.reply = some w ∧ w.getLsbD 0 = false ∧ w.getLsbD 1 = true

/-- 41_block_cipher.md R129, 10_state.md R36, R37, 43_system.md R192: the engine's round-by-round schedule, run for 64
steps per block, ends in the state the one completion step gives. Where inside a trip values are loaded and stored
is the model's choice (log 18). -/
def Obligations.EngineScheduleRefinesCompletion : Prop :=
  ∀ (i : Instr) (s t : State), s.busy = true → inProgress s = some i → exec i s = .next t →
    t = finish (engineRun i s)

/-- 41_block_cipher.md R129: `n` engine steps of a block operation, `n` below 64, leave RND = n and the working
registers at the values of `n` rounds. -/
def Obligations.EngineRoundsFollowTheCipher : Prop :=
  ∀ (s : State) (n : Nat), 0 < n → n < 64 → s.scratch.rnd = 0 →
    (repeated (engineTick .encblk) n s).scratch =
      (let r := repeated (encRound s.key) n ⟨s.v0, s.v1, 0⟩
       ⟨s.scratch.i, n, r.sum, r.v0, r.v1⟩) ∧
    (repeated (engineTick .decblk) n s).scratch =
      (let r := repeated (decRound s.key) n ⟨s.v0, s.v1, 0x8DDE6E40⟩
       ⟨s.scratch.i, n, r.sum, r.v0, r.v1⟩)

/-- 60_exceptions.md R212: with no command in progress the engine is idle and all state is retained. Its turn, whether
it stands among the inputs or no input is left (the model's choice, log 17), leaves every register, flag, memory and
hidden register of the block. -/
def Obligations.IdleEngineRetainsAllState : Prop :=
  ∀ (s : State) (rest : List Input), s.busy = false →
    ((s.inputs = [] ∧ rest = []) ∨ s.inputs = .engine :: rest) →
      step s = .next (advance rest s) ∧ advance rest s = { s with inputs := rest, reply := none }
end

