-- ==== Sys2Proof/Laws/State.lean ====
section
/-! SUPPORT. What each field of the state is after each update: one lemma per field per update, true by `rfl`. -/

namespace Sys2Proof.Machine


/-! ### latch -/

@[simp] theorem latch_params (i : Instr) (s : State) : (latch i s).params = s.params := rfl
@[simp] theorem latch_seed (i : Instr) (s : State) : (latch i s).seed = s.seed := rfl
@[simp] theorem latch_key (i : Instr) (s : State) : (latch i s).key = s.key := rfl
@[simp] theorem latch_v0 (i : Instr) (s : State) : (latch i s).v0 = s.v0 := rfl
@[simp] theorem latch_v1 (i : Instr) (s : State) : (latch i s).v1 = s.v1 := rfl
@[simp] theorem latch_res (i : Instr) (s : State) : (latch i s).res = s.res := rfl
@[simp] theorem latch_len (i : Instr) (s : State) : (latch i s).len = s.len := rfl
@[simp] theorem latch_clen (i : Instr) (s : State) : (latch i s).clen = s.clen := rfl
@[simp] theorem latch_bcnt (i : Instr) (s : State) : (latch i s).bcnt = s.bcnt := rfl
@[simp] theorem latch_ckey (i : Instr) (s : State) : (latch i s).ckey = s.ckey := rfl
@[simp] theorem latch_busy (i : Instr) (s : State) : (latch i s).busy = true := rfl
@[simp] theorem latch_done (i : Instr) (s : State) : (latch i s).done = false := rfl
@[simp] theorem latch_kvalid (i : Instr) (s : State) : (latch i s).kvalid = s.kvalid := rfl
@[simp] theorem latch_cvalid (i : Instr) (s : State) : (latch i s).cvalid = s.cvalid := rfl
@[simp] theorem latch_rvalid (i : Instr) (s : State) : (latch i s).rvalid = s.rvalid := rfl
@[simp] theorem latch_err (i : Instr) (s : State) : (latch i s).err = s.err := rfl
@[simp] theorem latch_ovalid (i : Instr) (s : State) : (latch i s).ovalid = s.ovalid := rfl
@[simp] theorem latch_txt (i : Instr) (s : State) : (latch i s).txt = s.txt := rfl
@[simp] theorem latch_blk (i : Instr) (s : State) : (latch i s).blk = s.blk := rfl
@[simp] theorem latch_out (i : Instr) (s : State) : (latch i s).out = s.out := rfl
@[simp] theorem latch_op (i : Instr) (s : State) : (latch i s).op = opcField (encode i) := rfl
@[simp] theorem latch_ctxl (i : Instr) (s : State) : (latch i s).ctxl = ctxField (encode i) := rfl
@[simp] theorem latch_scratch (i : Instr) (s : State) : (latch i s).scratch = s.scratch := rfl
@[simp] theorem latch_epoch (i : Instr) (s : State) : (latch i s).epoch = s.epoch := rfl
@[simp] theorem latch_draws (i : Instr) (s : State) : (latch i s).draws = s.draws := rfl
@[simp] theorem latch_inputs (i : Instr) (s : State) : (latch i s).inputs = s.inputs := rfl
@[simp] theorem latch_reply (i : Instr) (s : State) : (latch i s).reply = s.reply := rfl

/-! ### finish -/

@[simp] theorem finish_params (s : State) : (finish s).params = s.params := rfl
@[simp] theorem finish_seed (s : State) : (finish s).seed = s.seed := rfl
@[simp] theorem finish_key (s : State) : (finish s).key = s.key := rfl
@[simp] theorem finish_v0 (s : State) : (finish s).v0 = s.v0 := rfl
@[simp] theorem finish_v1 (s : State) : (finish s).v1 = s.v1 := rfl
@[simp] theorem finish_res (s : State) : (finish s).res = s.res := rfl
@[simp] theorem finish_len (s : State) : (finish s).len = s.len := rfl
@[simp] theorem finish_clen (s : State) : (finish s).clen = s.clen := rfl
@[simp] theorem finish_bcnt (s : State) : (finish s).bcnt = s.bcnt := rfl
@[simp] theorem finish_ckey (s : State) : (finish s).ckey = s.ckey := rfl
@[simp] theorem finish_busy (s : State) : (finish s).busy = false := rfl
@[simp] theorem finish_done (s : State) : (finish s).done = true := rfl
@[simp] theorem finish_kvalid (s : State) : (finish s).kvalid = s.kvalid := rfl
@[simp] theorem finish_cvalid (s : State) : (finish s).cvalid = s.cvalid := rfl
@[simp] theorem finish_rvalid (s : State) : (finish s).rvalid = s.rvalid := rfl
@[simp] theorem finish_err (s : State) : (finish s).err = s.err := rfl
@[simp] theorem finish_ovalid (s : State) : (finish s).ovalid = s.ovalid := rfl
@[simp] theorem finish_txt (s : State) : (finish s).txt = s.txt := rfl
@[simp] theorem finish_blk (s : State) : (finish s).blk = s.blk := rfl
@[simp] theorem finish_out (s : State) : (finish s).out = s.out := rfl
@[simp] theorem finish_op (s : State) : (finish s).op = s.op := rfl
@[simp] theorem finish_ctxl (s : State) : (finish s).ctxl = s.ctxl := rfl
@[simp] theorem finish_scratch (s : State) : (finish s).scratch = Scratch.idle s.draws := rfl
@[simp] theorem finish_epoch (s : State) : (finish s).epoch = s.epoch := rfl
@[simp] theorem finish_draws (s : State) : (finish s).draws = s.draws + 1 := rfl
@[simp] theorem finish_inputs (s : State) : (finish s).inputs = s.inputs := rfl
@[simp] theorem finish_reply (s : State) : (finish s).reply = s.reply := rfl

/-! ### clearError -/

@[simp] theorem clearError_params (s : State) : (clearError s).params = s.params := rfl
@[simp] theorem clearError_seed (s : State) : (clearError s).seed = s.seed := rfl
@[simp] theorem clearError_key (s : State) : (clearError s).key = s.key := rfl
@[simp] theorem clearError_v0 (s : State) : (clearError s).v0 = s.v0 := rfl
@[simp] theorem clearError_v1 (s : State) : (clearError s).v1 = s.v1 := rfl
@[simp] theorem clearError_res (s : State) : (clearError s).res = s.res := rfl
@[simp] theorem clearError_len (s : State) : (clearError s).len = s.len := rfl
@[simp] theorem clearError_clen (s : State) : (clearError s).clen = s.clen := rfl
@[simp] theorem clearError_bcnt (s : State) : (clearError s).bcnt = s.bcnt := rfl
@[simp] theorem clearError_ckey (s : State) : (clearError s).ckey = s.ckey := rfl
@[simp] theorem clearError_busy (s : State) : (clearError s).busy = s.busy := rfl
@[simp] theorem clearError_done (s : State) : (clearError s).done = s.done := rfl
@[simp] theorem clearError_kvalid (s : State) : (clearError s).kvalid = s.kvalid := rfl
@[simp] theorem clearError_cvalid (s : State) : (clearError s).cvalid = s.cvalid := rfl
@[simp] theorem clearError_rvalid (s : State) : (clearError s).rvalid = s.rvalid := rfl
@[simp] theorem clearError_err (s : State) : (clearError s).err = 0 := rfl
@[simp] theorem clearError_ovalid (s : State) : (clearError s).ovalid = s.ovalid := rfl
@[simp] theorem clearError_txt (s : State) : (clearError s).txt = s.txt := rfl
@[simp] theorem clearError_blk (s : State) : (clearError s).blk = s.blk := rfl
@[simp] theorem clearError_out (s : State) : (clearError s).out = s.out := rfl
@[simp] theorem clearError_op (s : State) : (clearError s).op = s.op := rfl
@[simp] theorem clearError_ctxl (s : State) : (clearError s).ctxl = s.ctxl := rfl
@[simp] theorem clearError_scratch (s : State) : (clearError s).scratch = s.scratch := rfl
@[simp] theorem clearError_epoch (s : State) : (clearError s).epoch = s.epoch := rfl
@[simp] theorem clearError_draws (s : State) : (clearError s).draws = s.draws := rfl
@[simp] theorem clearError_inputs (s : State) : (clearError s).inputs = s.inputs := rfl
@[simp] theorem clearError_reply (s : State) : (clearError s).reply = s.reply := rfl

/-! ### advance -/

@[simp] theorem advance_params (rest : List Input) (s : State) : (advance rest s).params = s.params := rfl
@[simp] theorem advance_seed (rest : List Input) (s : State) : (advance rest s).seed = s.seed := rfl
@[simp] theorem advance_key (rest : List Input) (s : State) : (advance rest s).key = s.key := rfl
@[simp] theorem advance_v0 (rest : List Input) (s : State) : (advance rest s).v0 = s.v0 := rfl
@[simp] theorem advance_v1 (rest : List Input) (s : State) : (advance rest s).v1 = s.v1 := rfl
@[simp] theorem advance_res (rest : List Input) (s : State) : (advance rest s).res = s.res := rfl
@[simp] theorem advance_len (rest : List Input) (s : State) : (advance rest s).len = s.len := rfl
@[simp] theorem advance_clen (rest : List Input) (s : State) : (advance rest s).clen = s.clen := rfl
@[simp] theorem advance_bcnt (rest : List Input) (s : State) : (advance rest s).bcnt = s.bcnt := rfl
@[simp] theorem advance_ckey (rest : List Input) (s : State) : (advance rest s).ckey = s.ckey := rfl
@[simp] theorem advance_busy (rest : List Input) (s : State) : (advance rest s).busy = s.busy := rfl
@[simp] theorem advance_done (rest : List Input) (s : State) : (advance rest s).done = s.done := rfl
@[simp] theorem advance_kvalid (rest : List Input) (s : State) : (advance rest s).kvalid = s.kvalid := rfl
@[simp] theorem advance_cvalid (rest : List Input) (s : State) : (advance rest s).cvalid = s.cvalid := rfl
@[simp] theorem advance_rvalid (rest : List Input) (s : State) : (advance rest s).rvalid = s.rvalid := rfl
@[simp] theorem advance_err (rest : List Input) (s : State) : (advance rest s).err = s.err := rfl
@[simp] theorem advance_ovalid (rest : List Input) (s : State) : (advance rest s).ovalid = s.ovalid := rfl
@[simp] theorem advance_txt (rest : List Input) (s : State) : (advance rest s).txt = s.txt := rfl
@[simp] theorem advance_blk (rest : List Input) (s : State) : (advance rest s).blk = s.blk := rfl
@[simp] theorem advance_out (rest : List Input) (s : State) : (advance rest s).out = s.out := rfl
@[simp] theorem advance_op (rest : List Input) (s : State) : (advance rest s).op = s.op := rfl
@[simp] theorem advance_ctxl (rest : List Input) (s : State) : (advance rest s).ctxl = s.ctxl := rfl
@[simp] theorem advance_scratch (rest : List Input) (s : State) : (advance rest s).scratch = s.scratch := rfl
@[simp] theorem advance_epoch (rest : List Input) (s : State) : (advance rest s).epoch = s.epoch := rfl
@[simp] theorem advance_draws (rest : List Input) (s : State) : (advance rest s).draws = s.draws := rfl
@[simp] theorem advance_inputs (rest : List Input) (s : State) : (advance rest s).inputs = rest := rfl
@[simp] theorem advance_reply (rest : List Input) (s : State) : (advance rest s).reply = none := rfl

/-! ### respond -/

@[simp] theorem respond_params (w : Word) (s : State) : (respond w s).params = s.params := rfl
@[simp] theorem respond_seed (w : Word) (s : State) : (respond w s).seed = s.seed := rfl
@[simp] theorem respond_key (w : Word) (s : State) : (respond w s).key = s.key := rfl
@[simp] theorem respond_v0 (w : Word) (s : State) : (respond w s).v0 = s.v0 := rfl
@[simp] theorem respond_v1 (w : Word) (s : State) : (respond w s).v1 = s.v1 := rfl
@[simp] theorem respond_res (w : Word) (s : State) : (respond w s).res = s.res := rfl
@[simp] theorem respond_len (w : Word) (s : State) : (respond w s).len = s.len := rfl
@[simp] theorem respond_clen (w : Word) (s : State) : (respond w s).clen = s.clen := rfl
@[simp] theorem respond_bcnt (w : Word) (s : State) : (respond w s).bcnt = s.bcnt := rfl
@[simp] theorem respond_ckey (w : Word) (s : State) : (respond w s).ckey = s.ckey := rfl
@[simp] theorem respond_busy (w : Word) (s : State) : (respond w s).busy = s.busy := rfl
@[simp] theorem respond_done (w : Word) (s : State) : (respond w s).done = s.done := rfl
@[simp] theorem respond_kvalid (w : Word) (s : State) : (respond w s).kvalid = s.kvalid := rfl
@[simp] theorem respond_cvalid (w : Word) (s : State) : (respond w s).cvalid = s.cvalid := rfl
@[simp] theorem respond_rvalid (w : Word) (s : State) : (respond w s).rvalid = s.rvalid := rfl
@[simp] theorem respond_err (w : Word) (s : State) : (respond w s).err = s.err := rfl
@[simp] theorem respond_ovalid (w : Word) (s : State) : (respond w s).ovalid = s.ovalid := rfl
@[simp] theorem respond_txt (w : Word) (s : State) : (respond w s).txt = s.txt := rfl
@[simp] theorem respond_blk (w : Word) (s : State) : (respond w s).blk = s.blk := rfl
@[simp] theorem respond_out (w : Word) (s : State) : (respond w s).out = s.out := rfl
@[simp] theorem respond_op (w : Word) (s : State) : (respond w s).op = s.op := rfl
@[simp] theorem respond_ctxl (w : Word) (s : State) : (respond w s).ctxl = s.ctxl := rfl
@[simp] theorem respond_scratch (w : Word) (s : State) : (respond w s).scratch = s.scratch := rfl
@[simp] theorem respond_epoch (w : Word) (s : State) : (respond w s).epoch = s.epoch := rfl
@[simp] theorem respond_draws (w : Word) (s : State) : (respond w s).draws = s.draws := rfl
@[simp] theorem respond_inputs (w : Word) (s : State) : (respond w s).inputs = s.inputs := rfl
@[simp] theorem respond_reply (w : Word) (s : State) : (respond w s).reply = some w := rfl

/-! ### respondFree -/

@[simp] theorem respondFree_params (s : State) : (respondFree s).params = s.params := rfl
@[simp] theorem respondFree_seed (s : State) : (respondFree s).seed = s.seed := rfl
@[simp] theorem respondFree_key (s : State) : (respondFree s).key = s.key := rfl
@[simp] theorem respondFree_v0 (s : State) : (respondFree s).v0 = s.v0 := rfl
@[simp] theorem respondFree_v1 (s : State) : (respondFree s).v1 = s.v1 := rfl
@[simp] theorem respondFree_res (s : State) : (respondFree s).res = s.res := rfl
@[simp] theorem respondFree_len (s : State) : (respondFree s).len = s.len := rfl
@[simp] theorem respondFree_clen (s : State) : (respondFree s).clen = s.clen := rfl
@[simp] theorem respondFree_bcnt (s : State) : (respondFree s).bcnt = s.bcnt := rfl
@[simp] theorem respondFree_ckey (s : State) : (respondFree s).ckey = s.ckey := rfl
@[simp] theorem respondFree_busy (s : State) : (respondFree s).busy = s.busy := rfl
@[simp] theorem respondFree_done (s : State) : (respondFree s).done = s.done := rfl
@[simp] theorem respondFree_kvalid (s : State) : (respondFree s).kvalid = s.kvalid := rfl
@[simp] theorem respondFree_cvalid (s : State) : (respondFree s).cvalid = s.cvalid := rfl
@[simp] theorem respondFree_rvalid (s : State) : (respondFree s).rvalid = s.rvalid := rfl
@[simp] theorem respondFree_err (s : State) : (respondFree s).err = s.err := rfl
@[simp] theorem respondFree_ovalid (s : State) : (respondFree s).ovalid = s.ovalid := rfl
@[simp] theorem respondFree_txt (s : State) : (respondFree s).txt = s.txt := rfl
@[simp] theorem respondFree_blk (s : State) : (respondFree s).blk = s.blk := rfl
@[simp] theorem respondFree_out (s : State) : (respondFree s).out = s.out := rfl
@[simp] theorem respondFree_op (s : State) : (respondFree s).op = s.op := rfl
@[simp] theorem respondFree_ctxl (s : State) : (respondFree s).ctxl = s.ctxl := rfl
@[simp] theorem respondFree_scratch (s : State) : (respondFree s).scratch = s.scratch := rfl
@[simp] theorem respondFree_epoch (s : State) : (respondFree s).epoch = s.epoch := rfl
@[simp] theorem respondFree_draws (s : State) : (respondFree s).draws = s.draws + 1 := rfl
@[simp] theorem respondFree_inputs (s : State) : (respondFree s).inputs = s.inputs := rfl
@[simp] theorem respondFree_reply (s : State) : (respondFree s).reply = some (Config.busyRead s.draws) := rfl

/-! ### deriveKey -/

@[simp] theorem deriveKey_params (s : State) : (deriveKey s).params = s.params := rfl
@[simp] theorem deriveKey_seed (s : State) : (deriveKey s).seed = s.seed := rfl
@[simp] theorem deriveKey_key (s : State) : (deriveKey s).key = keyDerive s.seed := rfl
@[simp] theorem deriveKey_v0 (s : State) : (deriveKey s).v0 = s.v0 := rfl
@[simp] theorem deriveKey_v1 (s : State) : (deriveKey s).v1 = s.v1 := rfl
@[simp] theorem deriveKey_res (s : State) : (deriveKey s).res = s.res := rfl
@[simp] theorem deriveKey_len (s : State) : (deriveKey s).len = s.len := rfl
@[simp] theorem deriveKey_clen (s : State) : (deriveKey s).clen = s.clen := rfl
@[simp] theorem deriveKey_bcnt (s : State) : (deriveKey s).bcnt = s.bcnt := rfl
@[simp] theorem deriveKey_ckey (s : State) : (deriveKey s).ckey = s.ckey := rfl
@[simp] theorem deriveKey_busy (s : State) : (deriveKey s).busy = s.busy := rfl
@[simp] theorem deriveKey_done (s : State) : (deriveKey s).done = s.done := rfl
@[simp] theorem deriveKey_kvalid (s : State) : (deriveKey s).kvalid = true := rfl
@[simp] theorem deriveKey_cvalid (s : State) : (deriveKey s).cvalid = s.cvalid := rfl
@[simp] theorem deriveKey_rvalid (s : State) : (deriveKey s).rvalid = s.rvalid := rfl
@[simp] theorem deriveKey_err (s : State) : (deriveKey s).err = s.err := rfl
@[simp] theorem deriveKey_ovalid (s : State) : (deriveKey s).ovalid = s.ovalid := rfl
@[simp] theorem deriveKey_txt (s : State) : (deriveKey s).txt = s.txt := rfl
@[simp] theorem deriveKey_blk (s : State) : (deriveKey s).blk = s.blk := rfl
@[simp] theorem deriveKey_out (s : State) : (deriveKey s).out = s.out := rfl
@[simp] theorem deriveKey_op (s : State) : (deriveKey s).op = s.op := rfl
@[simp] theorem deriveKey_ctxl (s : State) : (deriveKey s).ctxl = s.ctxl := rfl
@[simp] theorem deriveKey_scratch (s : State) : (deriveKey s).scratch = s.scratch := rfl
@[simp] theorem deriveKey_epoch (s : State) : (deriveKey s).epoch = s.epoch := rfl
@[simp] theorem deriveKey_draws (s : State) : (deriveKey s).draws = s.draws := rfl
@[simp] theorem deriveKey_inputs (s : State) : (deriveKey s).inputs = s.inputs := rfl
@[simp] theorem deriveKey_reply (s : State) : (deriveKey s).reply = s.reply := rfl

/-! ### encryptBlock -/

@[simp] theorem encryptBlock_params (s : State) : (encryptBlock s).params = s.params := rfl
@[simp] theorem encryptBlock_seed (s : State) : (encryptBlock s).seed = s.seed := rfl
@[simp] theorem encryptBlock_key (s : State) : (encryptBlock s).key = s.key := rfl
@[simp] theorem encryptBlock_v0 (s : State) : (encryptBlock s).v0 = s.v0 := rfl
@[simp] theorem encryptBlock_v1 (s : State) : (encryptBlock s).v1 = s.v1 := rfl
@[simp] theorem encryptBlock_res (s : State) : (encryptBlock s).res = enc s.v0 s.v1 s.key := rfl
@[simp] theorem encryptBlock_len (s : State) : (encryptBlock s).len = s.len := rfl
@[simp] theorem encryptBlock_clen (s : State) : (encryptBlock s).clen = s.clen := rfl
@[simp] theorem encryptBlock_bcnt (s : State) : (encryptBlock s).bcnt = s.bcnt := rfl
@[simp] theorem encryptBlock_ckey (s : State) : (encryptBlock s).ckey = s.ckey := rfl
@[simp] theorem encryptBlock_busy (s : State) : (encryptBlock s).busy = s.busy := rfl
@[simp] theorem encryptBlock_done (s : State) : (encryptBlock s).done = s.done := rfl
@[simp] theorem encryptBlock_kvalid (s : State) : (encryptBlock s).kvalid = s.kvalid := rfl
@[simp] theorem encryptBlock_cvalid (s : State) : (encryptBlock s).cvalid = s.cvalid := rfl
@[simp] theorem encryptBlock_rvalid (s : State) : (encryptBlock s).rvalid = true := rfl
@[simp] theorem encryptBlock_err (s : State) : (encryptBlock s).err = s.err := rfl
@[simp] theorem encryptBlock_ovalid (s : State) : (encryptBlock s).ovalid = s.ovalid := rfl
@[simp] theorem encryptBlock_txt (s : State) : (encryptBlock s).txt = s.txt := rfl
@[simp] theorem encryptBlock_blk (s : State) : (encryptBlock s).blk = s.blk := rfl
@[simp] theorem encryptBlock_out (s : State) : (encryptBlock s).out = s.out := rfl
@[simp] theorem encryptBlock_op (s : State) : (encryptBlock s).op = s.op := rfl
@[simp] theorem encryptBlock_ctxl (s : State) : (encryptBlock s).ctxl = s.ctxl := rfl
@[simp] theorem encryptBlock_scratch (s : State) : (encryptBlock s).scratch = s.scratch := rfl
@[simp] theorem encryptBlock_epoch (s : State) : (encryptBlock s).epoch = s.epoch := rfl
@[simp] theorem encryptBlock_draws (s : State) : (encryptBlock s).draws = s.draws := rfl
@[simp] theorem encryptBlock_inputs (s : State) : (encryptBlock s).inputs = s.inputs := rfl
@[simp] theorem encryptBlock_reply (s : State) : (encryptBlock s).reply = s.reply := rfl

/-! ### decryptBlock -/

@[simp] theorem decryptBlock_params (s : State) : (decryptBlock s).params = s.params := rfl
@[simp] theorem decryptBlock_seed (s : State) : (decryptBlock s).seed = s.seed := rfl
@[simp] theorem decryptBlock_key (s : State) : (decryptBlock s).key = s.key := rfl
@[simp] theorem decryptBlock_v0 (s : State) : (decryptBlock s).v0 = s.v0 := rfl
@[simp] theorem decryptBlock_v1 (s : State) : (decryptBlock s).v1 = s.v1 := rfl
@[simp] theorem decryptBlock_res (s : State) : (decryptBlock s).res = dec s.v0 s.v1 s.key := rfl
@[simp] theorem decryptBlock_len (s : State) : (decryptBlock s).len = s.len := rfl
@[simp] theorem decryptBlock_clen (s : State) : (decryptBlock s).clen = s.clen := rfl
@[simp] theorem decryptBlock_bcnt (s : State) : (decryptBlock s).bcnt = s.bcnt := rfl
@[simp] theorem decryptBlock_ckey (s : State) : (decryptBlock s).ckey = s.ckey := rfl
@[simp] theorem decryptBlock_busy (s : State) : (decryptBlock s).busy = s.busy := rfl
@[simp] theorem decryptBlock_done (s : State) : (decryptBlock s).done = s.done := rfl
@[simp] theorem decryptBlock_kvalid (s : State) : (decryptBlock s).kvalid = s.kvalid := rfl
@[simp] theorem decryptBlock_cvalid (s : State) : (decryptBlock s).cvalid = s.cvalid := rfl
@[simp] theorem decryptBlock_rvalid (s : State) : (decryptBlock s).rvalid = true := rfl
@[simp] theorem decryptBlock_err (s : State) : (decryptBlock s).err = s.err := rfl
@[simp] theorem decryptBlock_ovalid (s : State) : (decryptBlock s).ovalid = s.ovalid := rfl
@[simp] theorem decryptBlock_txt (s : State) : (decryptBlock s).txt = s.txt := rfl
@[simp] theorem decryptBlock_blk (s : State) : (decryptBlock s).blk = s.blk := rfl
@[simp] theorem decryptBlock_out (s : State) : (decryptBlock s).out = s.out := rfl
@[simp] theorem decryptBlock_op (s : State) : (decryptBlock s).op = s.op := rfl
@[simp] theorem decryptBlock_ctxl (s : State) : (decryptBlock s).ctxl = s.ctxl := rfl
@[simp] theorem decryptBlock_scratch (s : State) : (decryptBlock s).scratch = s.scratch := rfl
@[simp] theorem decryptBlock_epoch (s : State) : (decryptBlock s).epoch = s.epoch := rfl
@[simp] theorem decryptBlock_draws (s : State) : (decryptBlock s).draws = s.draws := rfl
@[simp] theorem decryptBlock_inputs (s : State) : (decryptBlock s).inputs = s.inputs := rfl
@[simp] theorem decryptBlock_reply (s : State) : (decryptBlock s).reply = s.reply := rfl

/-! ### openContainer -/

@[simp] theorem openContainer_params (s : State) : (openContainer s).params = s.params := rfl
@[simp] theorem openContainer_seed (s : State) : (openContainer s).seed = s.seed := rfl
@[simp] theorem openContainer_key (s : State) : (openContainer s).key = s.key := rfl
@[simp] theorem openContainer_v0 (s : State) : (openContainer s).v0 = s.v0 := rfl
@[simp] theorem openContainer_v1 (s : State) : (openContainer s).v1 = s.v1 := rfl
@[simp] theorem openContainer_res (s : State) : (openContainer s).res = s.res := rfl
@[simp] theorem openContainer_len (s : State) : (openContainer s).len = s.len := rfl
@[simp] theorem openContainer_clen (s : State) : (openContainer s).clen = s.len := rfl
@[simp] theorem openContainer_bcnt (s : State) : (openContainer s).bcnt = BitVec.ofNat 32 (blockCount s.len.toNat) := rfl
@[simp] theorem openContainer_ckey (s : State) : (openContainer s).ckey = keyDerive s.seed := rfl
@[simp] theorem openContainer_busy (s : State) : (openContainer s).busy = s.busy := rfl
@[simp] theorem openContainer_done (s : State) : (openContainer s).done = s.done := rfl
@[simp] theorem openContainer_kvalid (s : State) : (openContainer s).kvalid = s.kvalid := rfl
@[simp] theorem openContainer_cvalid (s : State) : (openContainer s).cvalid = s.cvalid := rfl
@[simp] theorem openContainer_rvalid (s : State) : (openContainer s).rvalid = s.rvalid := rfl
@[simp] theorem openContainer_err (s : State) : (openContainer s).err = s.err := rfl
@[simp] theorem openContainer_ovalid (s : State) : (openContainer s).ovalid = s.ovalid := rfl
@[simp] theorem openContainer_txt (s : State) : (openContainer s).txt = s.txt := rfl
@[simp] theorem openContainer_blk (s : State) : (openContainer s).blk = s.blk := rfl
@[simp] theorem openContainer_out (s : State) : (openContainer s).out = s.out := rfl
@[simp] theorem openContainer_op (s : State) : (openContainer s).op = s.op := rfl
@[simp] theorem openContainer_ctxl (s : State) : (openContainer s).ctxl = s.ctxl := rfl
@[simp] theorem openContainer_scratch (s : State) : (openContainer s).scratch = s.scratch := rfl
@[simp] theorem openContainer_epoch (s : State) : (openContainer s).epoch = s.epoch := rfl
@[simp] theorem openContainer_draws (s : State) : (openContainer s).draws = s.draws := rfl
@[simp] theorem openContainer_inputs (s : State) : (openContainer s).inputs = s.inputs := rfl
@[simp] theorem openContainer_reply (s : State) : (openContainer s).reply = s.reply := rfl

/-! ### validateContainer -/

@[simp] theorem validateContainer_params (s : State) : (validateContainer s).params = s.params := rfl
@[simp] theorem validateContainer_seed (s : State) : (validateContainer s).seed = s.seed := rfl
@[simp] theorem validateContainer_key (s : State) : (validateContainer s).key = s.key := rfl
@[simp] theorem validateContainer_v0 (s : State) : (validateContainer s).v0 = s.v0 := rfl
@[simp] theorem validateContainer_v1 (s : State) : (validateContainer s).v1 = s.v1 := rfl
@[simp] theorem validateContainer_res (s : State) : (validateContainer s).res = s.res := rfl
@[simp] theorem validateContainer_len (s : State) : (validateContainer s).len = s.len := rfl
@[simp] theorem validateContainer_clen (s : State) : (validateContainer s).clen = s.clen := rfl
@[simp] theorem validateContainer_bcnt (s : State) : (validateContainer s).bcnt = s.bcnt := rfl
@[simp] theorem validateContainer_ckey (s : State) : (validateContainer s).ckey = s.ckey := rfl
@[simp] theorem validateContainer_busy (s : State) : (validateContainer s).busy = s.busy := rfl
@[simp] theorem validateContainer_done (s : State) : (validateContainer s).done = s.done := rfl
@[simp] theorem validateContainer_kvalid (s : State) : (validateContainer s).kvalid = s.kvalid := rfl
@[simp] theorem validateContainer_cvalid (s : State) : (validateContainer s).cvalid = true := rfl
@[simp] theorem validateContainer_rvalid (s : State) : (validateContainer s).rvalid = s.rvalid := rfl
@[simp] theorem validateContainer_err (s : State) : (validateContainer s).err = s.err := rfl
@[simp] theorem validateContainer_ovalid (s : State) : (validateContainer s).ovalid = s.ovalid := rfl
@[simp] theorem validateContainer_txt (s : State) : (validateContainer s).txt = s.txt := rfl
@[simp] theorem validateContainer_blk (s : State) : (validateContainer s).blk = s.blk := rfl
@[simp] theorem validateContainer_out (s : State) : (validateContainer s).out = s.out := rfl
@[simp] theorem validateContainer_op (s : State) : (validateContainer s).op = s.op := rfl
@[simp] theorem validateContainer_ctxl (s : State) : (validateContainer s).ctxl = s.ctxl := rfl
@[simp] theorem validateContainer_scratch (s : State) : (validateContainer s).scratch = s.scratch := rfl
@[simp] theorem validateContainer_epoch (s : State) : (validateContainer s).epoch = s.epoch := rfl
@[simp] theorem validateContainer_draws (s : State) : (validateContainer s).draws = s.draws := rfl
@[simp] theorem validateContainer_inputs (s : State) : (validateContainer s).inputs = s.inputs := rfl
@[simp] theorem validateContainer_reply (s : State) : (validateContainer s).reply = s.reply := rfl

/-! ### setOvalid -/

@[simp] theorem setOvalid_params (c : Nat) (s : State) : (setOvalid c s).params = s.params := rfl
@[simp] theorem setOvalid_seed (c : Nat) (s : State) : (setOvalid c s).seed = s.seed := rfl
@[simp] theorem setOvalid_key (c : Nat) (s : State) : (setOvalid c s).key = s.key := rfl
@[simp] theorem setOvalid_v0 (c : Nat) (s : State) : (setOvalid c s).v0 = s.v0 := rfl
@[simp] theorem setOvalid_v1 (c : Nat) (s : State) : (setOvalid c s).v1 = s.v1 := rfl
@[simp] theorem setOvalid_res (c : Nat) (s : State) : (setOvalid c s).res = s.res := rfl
@[simp] theorem setOvalid_len (c : Nat) (s : State) : (setOvalid c s).len = s.len := rfl
@[simp] theorem setOvalid_clen (c : Nat) (s : State) : (setOvalid c s).clen = s.clen := rfl
@[simp] theorem setOvalid_bcnt (c : Nat) (s : State) : (setOvalid c s).bcnt = s.bcnt := rfl
@[simp] theorem setOvalid_ckey (c : Nat) (s : State) : (setOvalid c s).ckey = s.ckey := rfl
@[simp] theorem setOvalid_busy (c : Nat) (s : State) : (setOvalid c s).busy = s.busy := rfl
@[simp] theorem setOvalid_done (c : Nat) (s : State) : (setOvalid c s).done = s.done := rfl
@[simp] theorem setOvalid_kvalid (c : Nat) (s : State) : (setOvalid c s).kvalid = s.kvalid := rfl
@[simp] theorem setOvalid_cvalid (c : Nat) (s : State) : (setOvalid c s).cvalid = s.cvalid := rfl
@[simp] theorem setOvalid_rvalid (c : Nat) (s : State) : (setOvalid c s).rvalid = s.rvalid := rfl
@[simp] theorem setOvalid_err (c : Nat) (s : State) : (setOvalid c s).err = s.err := rfl
@[simp] theorem setOvalid_ovalid (c : Nat) (s : State) : (setOvalid c s).ovalid = s.ovalid ||| (1#16 <<< c) := rfl
@[simp] theorem setOvalid_txt (c : Nat) (s : State) : (setOvalid c s).txt = s.txt := rfl
@[simp] theorem setOvalid_blk (c : Nat) (s : State) : (setOvalid c s).blk = s.blk := rfl
@[simp] theorem setOvalid_out (c : Nat) (s : State) : (setOvalid c s).out = s.out := rfl
@[simp] theorem setOvalid_op (c : Nat) (s : State) : (setOvalid c s).op = s.op := rfl
@[simp] theorem setOvalid_ctxl (c : Nat) (s : State) : (setOvalid c s).ctxl = s.ctxl := rfl
@[simp] theorem setOvalid_scratch (c : Nat) (s : State) : (setOvalid c s).scratch = s.scratch := rfl
@[simp] theorem setOvalid_epoch (c : Nat) (s : State) : (setOvalid c s).epoch = s.epoch := rfl
@[simp] theorem setOvalid_draws (c : Nat) (s : State) : (setOvalid c s).draws = s.draws := rfl
@[simp] theorem setOvalid_inputs (c : Nat) (s : State) : (setOvalid c s).inputs = s.inputs := rfl
@[simp] theorem setOvalid_reply (c : Nat) (s : State) : (setOvalid c s).reply = s.reply := rfl

/-! ### loadBlock -/

@[simp] theorem loadBlock_params (w0 w1 sum : Word) (s : State) : (loadBlock w0 w1 sum s).params = s.params := rfl
@[simp] theorem loadBlock_seed (w0 w1 sum : Word) (s : State) : (loadBlock w0 w1 sum s).seed = s.seed := rfl
@[simp] theorem loadBlock_key (w0 w1 sum : Word) (s : State) : (loadBlock w0 w1 sum s).key = s.key := rfl
@[simp] theorem loadBlock_v0 (w0 w1 sum : Word) (s : State) : (loadBlock w0 w1 sum s).v0 = s.v0 := rfl
@[simp] theorem loadBlock_v1 (w0 w1 sum : Word) (s : State) : (loadBlock w0 w1 sum s).v1 = s.v1 := rfl
@[simp] theorem loadBlock_res (w0 w1 sum : Word) (s : State) : (loadBlock w0 w1 sum s).res = s.res := rfl
@[simp] theorem loadBlock_len (w0 w1 sum : Word) (s : State) : (loadBlock w0 w1 sum s).len = s.len := rfl
@[simp] theorem loadBlock_clen (w0 w1 sum : Word) (s : State) : (loadBlock w0 w1 sum s).clen = s.clen := rfl
@[simp] theorem loadBlock_bcnt (w0 w1 sum : Word) (s : State) : (loadBlock w0 w1 sum s).bcnt = s.bcnt := rfl
@[simp] theorem loadBlock_ckey (w0 w1 sum : Word) (s : State) : (loadBlock w0 w1 sum s).ckey = s.ckey := rfl
@[simp] theorem loadBlock_busy (w0 w1 sum : Word) (s : State) : (loadBlock w0 w1 sum s).busy = s.busy := rfl
@[simp] theorem loadBlock_done (w0 w1 sum : Word) (s : State) : (loadBlock w0 w1 sum s).done = s.done := rfl
@[simp] theorem loadBlock_kvalid (w0 w1 sum : Word) (s : State) : (loadBlock w0 w1 sum s).kvalid = s.kvalid := rfl
@[simp] theorem loadBlock_cvalid (w0 w1 sum : Word) (s : State) : (loadBlock w0 w1 sum s).cvalid = s.cvalid := rfl
@[simp] theorem loadBlock_rvalid (w0 w1 sum : Word) (s : State) : (loadBlock w0 w1 sum s).rvalid = s.rvalid := rfl
@[simp] theorem loadBlock_err (w0 w1 sum : Word) (s : State) : (loadBlock w0 w1 sum s).err = s.err := rfl
@[simp] theorem loadBlock_ovalid (w0 w1 sum : Word) (s : State) : (loadBlock w0 w1 sum s).ovalid = s.ovalid := rfl
@[simp] theorem loadBlock_txt (w0 w1 sum : Word) (s : State) : (loadBlock w0 w1 sum s).txt = s.txt := rfl
@[simp] theorem loadBlock_blk (w0 w1 sum : Word) (s : State) : (loadBlock w0 w1 sum s).blk = s.blk := rfl
@[simp] theorem loadBlock_out (w0 w1 sum : Word) (s : State) : (loadBlock w0 w1 sum s).out = s.out := rfl
@[simp] theorem loadBlock_op (w0 w1 sum : Word) (s : State) : (loadBlock w0 w1 sum s).op = s.op := rfl
@[simp] theorem loadBlock_ctxl (w0 w1 sum : Word) (s : State) : (loadBlock w0 w1 sum s).ctxl = s.ctxl := rfl
@[simp] theorem loadBlock_scratch (w0 w1 sum : Word) (s : State) : (loadBlock w0 w1 sum s).scratch = { s.scratch with rnd := 0, sum := sum, w0 := w0, w1 := w1 } := rfl
@[simp] theorem loadBlock_epoch (w0 w1 sum : Word) (s : State) : (loadBlock w0 w1 sum s).epoch = s.epoch := rfl
@[simp] theorem loadBlock_draws (w0 w1 sum : Word) (s : State) : (loadBlock w0 w1 sum s).draws = s.draws := rfl
@[simp] theorem loadBlock_inputs (w0 w1 sum : Word) (s : State) : (loadBlock w0 w1 sum s).inputs = s.inputs := rfl
@[simp] theorem loadBlock_reply (w0 w1 sum : Word) (s : State) : (loadBlock w0 w1 sum s).reply = s.reply := rfl

/-! ### nextIndex -/

@[simp] theorem nextIndex_params (s : State) : (nextIndex s).params = s.params := rfl
@[simp] theorem nextIndex_seed (s : State) : (nextIndex s).seed = s.seed := rfl
@[simp] theorem nextIndex_key (s : State) : (nextIndex s).key = s.key := rfl
@[simp] theorem nextIndex_v0 (s : State) : (nextIndex s).v0 = s.v0 := rfl
@[simp] theorem nextIndex_v1 (s : State) : (nextIndex s).v1 = s.v1 := rfl
@[simp] theorem nextIndex_res (s : State) : (nextIndex s).res = s.res := rfl
@[simp] theorem nextIndex_len (s : State) : (nextIndex s).len = s.len := rfl
@[simp] theorem nextIndex_clen (s : State) : (nextIndex s).clen = s.clen := rfl
@[simp] theorem nextIndex_bcnt (s : State) : (nextIndex s).bcnt = s.bcnt := rfl
@[simp] theorem nextIndex_ckey (s : State) : (nextIndex s).ckey = s.ckey := rfl
@[simp] theorem nextIndex_busy (s : State) : (nextIndex s).busy = s.busy := rfl
@[simp] theorem nextIndex_done (s : State) : (nextIndex s).done = s.done := rfl
@[simp] theorem nextIndex_kvalid (s : State) : (nextIndex s).kvalid = s.kvalid := rfl
@[simp] theorem nextIndex_cvalid (s : State) : (nextIndex s).cvalid = s.cvalid := rfl
@[simp] theorem nextIndex_rvalid (s : State) : (nextIndex s).rvalid = s.rvalid := rfl
@[simp] theorem nextIndex_err (s : State) : (nextIndex s).err = s.err := rfl
@[simp] theorem nextIndex_ovalid (s : State) : (nextIndex s).ovalid = s.ovalid := rfl
@[simp] theorem nextIndex_txt (s : State) : (nextIndex s).txt = s.txt := rfl
@[simp] theorem nextIndex_blk (s : State) : (nextIndex s).blk = s.blk := rfl
@[simp] theorem nextIndex_out (s : State) : (nextIndex s).out = s.out := rfl
@[simp] theorem nextIndex_op (s : State) : (nextIndex s).op = s.op := rfl
@[simp] theorem nextIndex_ctxl (s : State) : (nextIndex s).ctxl = s.ctxl := rfl
@[simp] theorem nextIndex_scratch (s : State) : (nextIndex s).scratch = { s.scratch with i := s.scratch.i + 1, rnd := 0 } := rfl
@[simp] theorem nextIndex_epoch (s : State) : (nextIndex s).epoch = s.epoch := rfl
@[simp] theorem nextIndex_draws (s : State) : (nextIndex s).draws = s.draws := rfl
@[simp] theorem nextIndex_inputs (s : State) : (nextIndex s).inputs = s.inputs := rfl
@[simp] theorem nextIndex_reply (s : State) : (nextIndex s).reply = s.reply := rfl

/-! ### setBank: only the memories change -/

@[simp] theorem setBank_params (sp : Space) (m : Memory) (s : State) : (setBank sp m s).params = s.params := by cases sp <;> rfl
@[simp] theorem setBank_seed (sp : Space) (m : Memory) (s : State) : (setBank sp m s).seed = s.seed := by cases sp <;> rfl
@[simp] theorem setBank_key (sp : Space) (m : Memory) (s : State) : (setBank sp m s).key = s.key := by cases sp <;> rfl
@[simp] theorem setBank_v0 (sp : Space) (m : Memory) (s : State) : (setBank sp m s).v0 = s.v0 := by cases sp <;> rfl
@[simp] theorem setBank_v1 (sp : Space) (m : Memory) (s : State) : (setBank sp m s).v1 = s.v1 := by cases sp <;> rfl
@[simp] theorem setBank_res (sp : Space) (m : Memory) (s : State) : (setBank sp m s).res = s.res := by cases sp <;> rfl
@[simp] theorem setBank_len (sp : Space) (m : Memory) (s : State) : (setBank sp m s).len = s.len := by cases sp <;> rfl
@[simp] theorem setBank_clen (sp : Space) (m : Memory) (s : State) : (setBank sp m s).clen = s.clen := by cases sp <;> rfl
@[simp] theorem setBank_bcnt (sp : Space) (m : Memory) (s : State) : (setBank sp m s).bcnt = s.bcnt := by cases sp <;> rfl
@[simp] theorem setBank_ckey (sp : Space) (m : Memory) (s : State) : (setBank sp m s).ckey = s.ckey := by cases sp <;> rfl
@[simp] theorem setBank_busy (sp : Space) (m : Memory) (s : State) : (setBank sp m s).busy = s.busy := by cases sp <;> rfl
@[simp] theorem setBank_done (sp : Space) (m : Memory) (s : State) : (setBank sp m s).done = s.done := by cases sp <;> rfl
@[simp] theorem setBank_kvalid (sp : Space) (m : Memory) (s : State) : (setBank sp m s).kvalid = s.kvalid := by cases sp <;> rfl
@[simp] theorem setBank_cvalid (sp : Space) (m : Memory) (s : State) : (setBank sp m s).cvalid = s.cvalid := by cases sp <;> rfl
@[simp] theorem setBank_rvalid (sp : Space) (m : Memory) (s : State) : (setBank sp m s).rvalid = s.rvalid := by cases sp <;> rfl
@[simp] theorem setBank_err (sp : Space) (m : Memory) (s : State) : (setBank sp m s).err = s.err := by cases sp <;> rfl
@[simp] theorem setBank_ovalid (sp : Space) (m : Memory) (s : State) : (setBank sp m s).ovalid = s.ovalid := by cases sp <;> rfl
@[simp] theorem setBank_op (sp : Space) (m : Memory) (s : State) : (setBank sp m s).op = s.op := by cases sp <;> rfl
@[simp] theorem setBank_ctxl (sp : Space) (m : Memory) (s : State) : (setBank sp m s).ctxl = s.ctxl := by cases sp <;> rfl
@[simp] theorem setBank_scratch (sp : Space) (m : Memory) (s : State) : (setBank sp m s).scratch = s.scratch := by cases sp <;> rfl
@[simp] theorem setBank_epoch (sp : Space) (m : Memory) (s : State) : (setBank sp m s).epoch = s.epoch := by cases sp <;> rfl
@[simp] theorem setBank_draws (sp : Space) (m : Memory) (s : State) : (setBank sp m s).draws = s.draws := by cases sp <;> rfl
@[simp] theorem setBank_inputs (sp : Space) (m : Memory) (s : State) : (setBank sp m s).inputs = s.inputs := by cases sp <;> rfl
@[simp] theorem setBank_reply (sp : Space) (m : Memory) (s : State) : (setBank sp m s).reply = s.reply := by cases sp <;> rfl

/-! ### refuse: only ERR changes -/

@[simp] theorem refuse_params (c : ErrCode) (s : State) : (refuse c s).params = s.params := by unfold refuse; split <;> rfl
@[simp] theorem refuse_seed (c : ErrCode) (s : State) : (refuse c s).seed = s.seed := by unfold refuse; split <;> rfl
@[simp] theorem refuse_key (c : ErrCode) (s : State) : (refuse c s).key = s.key := by unfold refuse; split <;> rfl
@[simp] theorem refuse_v0 (c : ErrCode) (s : State) : (refuse c s).v0 = s.v0 := by unfold refuse; split <;> rfl
@[simp] theorem refuse_v1 (c : ErrCode) (s : State) : (refuse c s).v1 = s.v1 := by unfold refuse; split <;> rfl
@[simp] theorem refuse_res (c : ErrCode) (s : State) : (refuse c s).res = s.res := by unfold refuse; split <;> rfl
@[simp] theorem refuse_len (c : ErrCode) (s : State) : (refuse c s).len = s.len := by unfold refuse; split <;> rfl
@[simp] theorem refuse_clen (c : ErrCode) (s : State) : (refuse c s).clen = s.clen := by unfold refuse; split <;> rfl
@[simp] theorem refuse_bcnt (c : ErrCode) (s : State) : (refuse c s).bcnt = s.bcnt := by unfold refuse; split <;> rfl
@[simp] theorem refuse_ckey (c : ErrCode) (s : State) : (refuse c s).ckey = s.ckey := by unfold refuse; split <;> rfl
@[simp] theorem refuse_busy (c : ErrCode) (s : State) : (refuse c s).busy = s.busy := by unfold refuse; split <;> rfl
@[simp] theorem refuse_done (c : ErrCode) (s : State) : (refuse c s).done = s.done := by unfold refuse; split <;> rfl
@[simp] theorem refuse_kvalid (c : ErrCode) (s : State) : (refuse c s).kvalid = s.kvalid := by unfold refuse; split <;> rfl
@[simp] theorem refuse_cvalid (c : ErrCode) (s : State) : (refuse c s).cvalid = s.cvalid := by unfold refuse; split <;> rfl
@[simp] theorem refuse_rvalid (c : ErrCode) (s : State) : (refuse c s).rvalid = s.rvalid := by unfold refuse; split <;> rfl
@[simp] theorem refuse_ovalid (c : ErrCode) (s : State) : (refuse c s).ovalid = s.ovalid := by unfold refuse; split <;> rfl
@[simp] theorem refuse_txt (c : ErrCode) (s : State) : (refuse c s).txt = s.txt := by unfold refuse; split <;> rfl
@[simp] theorem refuse_blk (c : ErrCode) (s : State) : (refuse c s).blk = s.blk := by unfold refuse; split <;> rfl
@[simp] theorem refuse_out (c : ErrCode) (s : State) : (refuse c s).out = s.out := by unfold refuse; split <;> rfl
@[simp] theorem refuse_op (c : ErrCode) (s : State) : (refuse c s).op = s.op := by unfold refuse; split <;> rfl
@[simp] theorem refuse_ctxl (c : ErrCode) (s : State) : (refuse c s).ctxl = s.ctxl := by unfold refuse; split <;> rfl
@[simp] theorem refuse_scratch (c : ErrCode) (s : State) : (refuse c s).scratch = s.scratch := by unfold refuse; split <;> rfl
@[simp] theorem refuse_epoch (c : ErrCode) (s : State) : (refuse c s).epoch = s.epoch := by unfold refuse; split <;> rfl
@[simp] theorem refuse_draws (c : ErrCode) (s : State) : (refuse c s).draws = s.draws := by unfold refuse; split <;> rfl
@[simp] theorem refuse_inputs (c : ErrCode) (s : State) : (refuse c s).inputs = s.inputs := by unfold refuse; split <;> rfl
@[simp] theorem refuse_reply (c : ErrCode) (s : State) : (refuse c s).reply = s.reply := by unfold refuse; split <;> rfl

/-- ERR after a refusal: the first code stays (10_state.md R33). -/
@[simp] theorem refuse_err (c : ErrCode) (s : State) :
    (refuse c s).err = if s.err = 0 then c.code else s.err := by
  unfold refuse
  split <;> rfl

/-- A refusal as a record update. -/
theorem refuse_eq (c : ErrCode) (s : State) :
    refuse c s = { s with err := if s.err = 0 then c.code else s.err } := by
  unfold refuse
  split <;> rfl

/-! ### writeByte and memWrite: only the memories change -/

@[simp] theorem writeByte_params (sp : Space) (a : Nat) (v : Byte) (s : State) : (writeByte sp a v s).params = s.params := by simp [writeByte]
@[simp] theorem writeByte_seed (sp : Space) (a : Nat) (v : Byte) (s : State) : (writeByte sp a v s).seed = s.seed := by simp [writeByte]
@[simp] theorem writeByte_key (sp : Space) (a : Nat) (v : Byte) (s : State) : (writeByte sp a v s).key = s.key := by simp [writeByte]
@[simp] theorem writeByte_v0 (sp : Space) (a : Nat) (v : Byte) (s : State) : (writeByte sp a v s).v0 = s.v0 := by simp [writeByte]
@[simp] theorem writeByte_v1 (sp : Space) (a : Nat) (v : Byte) (s : State) : (writeByte sp a v s).v1 = s.v1 := by simp [writeByte]
@[simp] theorem writeByte_res (sp : Space) (a : Nat) (v : Byte) (s : State) : (writeByte sp a v s).res = s.res := by simp [writeByte]
@[simp] theorem writeByte_len (sp : Space) (a : Nat) (v : Byte) (s : State) : (writeByte sp a v s).len = s.len := by simp [writeByte]
@[simp] theorem writeByte_clen (sp : Space) (a : Nat) (v : Byte) (s : State) : (writeByte sp a v s).clen = s.clen := by simp [writeByte]
@[simp] theorem writeByte_bcnt (sp : Space) (a : Nat) (v : Byte) (s : State) : (writeByte sp a v s).bcnt = s.bcnt := by simp [writeByte]
@[simp] theorem writeByte_ckey (sp : Space) (a : Nat) (v : Byte) (s : State) : (writeByte sp a v s).ckey = s.ckey := by simp [writeByte]
@[simp] theorem writeByte_busy (sp : Space) (a : Nat) (v : Byte) (s : State) : (writeByte sp a v s).busy = s.busy := by simp [writeByte]
@[simp] theorem writeByte_done (sp : Space) (a : Nat) (v : Byte) (s : State) : (writeByte sp a v s).done = s.done := by simp [writeByte]
@[simp] theorem writeByte_kvalid (sp : Space) (a : Nat) (v : Byte) (s : State) : (writeByte sp a v s).kvalid = s.kvalid := by simp [writeByte]
@[simp] theorem writeByte_cvalid (sp : Space) (a : Nat) (v : Byte) (s : State) : (writeByte sp a v s).cvalid = s.cvalid := by simp [writeByte]
@[simp] theorem writeByte_rvalid (sp : Space) (a : Nat) (v : Byte) (s : State) : (writeByte sp a v s).rvalid = s.rvalid := by simp [writeByte]
@[simp] theorem writeByte_err (sp : Space) (a : Nat) (v : Byte) (s : State) : (writeByte sp a v s).err = s.err := by simp [writeByte]
@[simp] theorem writeByte_ovalid (sp : Space) (a : Nat) (v : Byte) (s : State) : (writeByte sp a v s).ovalid = s.ovalid := by simp [writeByte]
@[simp] theorem writeByte_op (sp : Space) (a : Nat) (v : Byte) (s : State) : (writeByte sp a v s).op = s.op := by simp [writeByte]
@[simp] theorem writeByte_ctxl (sp : Space) (a : Nat) (v : Byte) (s : State) : (writeByte sp a v s).ctxl = s.ctxl := by simp [writeByte]
@[simp] theorem writeByte_scratch (sp : Space) (a : Nat) (v : Byte) (s : State) : (writeByte sp a v s).scratch = s.scratch := by simp [writeByte]
@[simp] theorem writeByte_epoch (sp : Space) (a : Nat) (v : Byte) (s : State) : (writeByte sp a v s).epoch = s.epoch := by simp [writeByte]
@[simp] theorem writeByte_draws (sp : Space) (a : Nat) (v : Byte) (s : State) : (writeByte sp a v s).draws = s.draws := by simp [writeByte]
@[simp] theorem writeByte_inputs (sp : Space) (a : Nat) (v : Byte) (s : State) : (writeByte sp a v s).inputs = s.inputs := by simp [writeByte]
@[simp] theorem writeByte_reply (sp : Space) (a : Nat) (v : Byte) (s : State) : (writeByte sp a v s).reply = s.reply := by simp [writeByte]

@[simp] theorem memWrite_params (sp : Space) (a n v : Nat) (s : State) : (memWrite sp a n v s).params = s.params := by
  induction n generalizing a v s <;> simp_all [memWrite]
@[simp] theorem memWrite_seed (sp : Space) (a n v : Nat) (s : State) : (memWrite sp a n v s).seed = s.seed := by
  induction n generalizing a v s <;> simp_all [memWrite]
@[simp] theorem memWrite_key (sp : Space) (a n v : Nat) (s : State) : (memWrite sp a n v s).key = s.key := by
  induction n generalizing a v s <;> simp_all [memWrite]
@[simp] theorem memWrite_v0 (sp : Space) (a n v : Nat) (s : State) : (memWrite sp a n v s).v0 = s.v0 := by
  induction n generalizing a v s <;> simp_all [memWrite]
@[simp] theorem memWrite_v1 (sp : Space) (a n v : Nat) (s : State) : (memWrite sp a n v s).v1 = s.v1 := by
  induction n generalizing a v s <;> simp_all [memWrite]
@[simp] theorem memWrite_res (sp : Space) (a n v : Nat) (s : State) : (memWrite sp a n v s).res = s.res := by
  induction n generalizing a v s <;> simp_all [memWrite]
@[simp] theorem memWrite_len (sp : Space) (a n v : Nat) (s : State) : (memWrite sp a n v s).len = s.len := by
  induction n generalizing a v s <;> simp_all [memWrite]
@[simp] theorem memWrite_clen (sp : Space) (a n v : Nat) (s : State) : (memWrite sp a n v s).clen = s.clen := by
  induction n generalizing a v s <;> simp_all [memWrite]
@[simp] theorem memWrite_bcnt (sp : Space) (a n v : Nat) (s : State) : (memWrite sp a n v s).bcnt = s.bcnt := by
  induction n generalizing a v s <;> simp_all [memWrite]
@[simp] theorem memWrite_ckey (sp : Space) (a n v : Nat) (s : State) : (memWrite sp a n v s).ckey = s.ckey := by
  induction n generalizing a v s <;> simp_all [memWrite]
@[simp] theorem memWrite_busy (sp : Space) (a n v : Nat) (s : State) : (memWrite sp a n v s).busy = s.busy := by
  induction n generalizing a v s <;> simp_all [memWrite]
@[simp] theorem memWrite_done (sp : Space) (a n v : Nat) (s : State) : (memWrite sp a n v s).done = s.done := by
  induction n generalizing a v s <;> simp_all [memWrite]
@[simp] theorem memWrite_kvalid (sp : Space) (a n v : Nat) (s : State) : (memWrite sp a n v s).kvalid = s.kvalid := by
  induction n generalizing a v s <;> simp_all [memWrite]
@[simp] theorem memWrite_cvalid (sp : Space) (a n v : Nat) (s : State) : (memWrite sp a n v s).cvalid = s.cvalid := by
  induction n generalizing a v s <;> simp_all [memWrite]
@[simp] theorem memWrite_rvalid (sp : Space) (a n v : Nat) (s : State) : (memWrite sp a n v s).rvalid = s.rvalid := by
  induction n generalizing a v s <;> simp_all [memWrite]
@[simp] theorem memWrite_err (sp : Space) (a n v : Nat) (s : State) : (memWrite sp a n v s).err = s.err := by
  induction n generalizing a v s <;> simp_all [memWrite]
@[simp] theorem memWrite_ovalid (sp : Space) (a n v : Nat) (s : State) : (memWrite sp a n v s).ovalid = s.ovalid := by
  induction n generalizing a v s <;> simp_all [memWrite]
@[simp] theorem memWrite_op (sp : Space) (a n v : Nat) (s : State) : (memWrite sp a n v s).op = s.op := by
  induction n generalizing a v s <;> simp_all [memWrite]
@[simp] theorem memWrite_ctxl (sp : Space) (a n v : Nat) (s : State) : (memWrite sp a n v s).ctxl = s.ctxl := by
  induction n generalizing a v s <;> simp_all [memWrite]
@[simp] theorem memWrite_scratch (sp : Space) (a n v : Nat) (s : State) : (memWrite sp a n v s).scratch = s.scratch := by
  induction n generalizing a v s <;> simp_all [memWrite]
@[simp] theorem memWrite_epoch (sp : Space) (a n v : Nat) (s : State) : (memWrite sp a n v s).epoch = s.epoch := by
  induction n generalizing a v s <;> simp_all [memWrite]
@[simp] theorem memWrite_draws (sp : Space) (a n v : Nat) (s : State) : (memWrite sp a n v s).draws = s.draws := by
  induction n generalizing a v s <;> simp_all [memWrite]
@[simp] theorem memWrite_inputs (sp : Space) (a n v : Nat) (s : State) : (memWrite sp a n v s).inputs = s.inputs := by
  induction n generalizing a v s <;> simp_all [memWrite]
@[simp] theorem memWrite_reply (sp : Space) (a n v : Nat) (s : State) : (memWrite sp a n v s).reply = s.reply := by
  induction n generalizing a v s <;> simp_all [memWrite]

end Sys2Proof.Machine
end

