-- ==== Sys2Proof/Laws/Memory.lean ====
section
/-! SUPPORT. What reading, writing and the canonical form of a memory satisfy. -/

namespace Sys2Proof.Machine

/-! ### The list of written bytes -/

theorem Memory.lookup_store_same (m : Memory) (x : Nat) (v : Byte) :
    Memory.lookup (Memory.store m x v) x = some v := by
  induction m with
  | nil => simp [Memory.store, Memory.lookup]
  | cons c m ih =>
    obtain ⟨a, b⟩ := c
    simp only [Memory.store]
    split
    · simp [Memory.lookup]
    · split
      · simp [Memory.lookup]
      · next h1 h2 => simp [Memory.lookup, Ne.symm h2, ih]

theorem Memory.lookup_store_other (m : Memory) (x y : Nat) (v : Byte) (h : y ≠ x) :
    Memory.lookup (Memory.store m x v) y = Memory.lookup m y := by
  induction m with
  | nil => simp [Memory.store, Memory.lookup, Ne.symm h]
  | cons c m ih =>
    obtain ⟨a, b⟩ := c
    simp only [Memory.store]
    split
    · simp [Memory.lookup, Ne.symm h]
    · split
      · next h1 h2 => subst h2; simp [Memory.lookup, Ne.symm h]
      · simp [Memory.lookup, ih]

/-- A head below a memory's first address extends the canonical form. -/
def Memory.above (a : Nat) (m : Memory) : Prop := ∀ c ∈ m, a < c.1

theorem Memory.wf_cons (c : Host.Cell) (m : Memory) :
    Memory.wf (c :: m) = true ↔ Memory.above c.1 m ∧ Memory.wf m = true := by
  induction m generalizing c with
  | nil => simp [Memory.wf, Memory.above]
  | cons d m ih =>
    obtain ⟨a, b⟩ := c
    obtain ⟨a', b'⟩ := d
    have h := ih (a', b')
    simp only [Memory.wf, Bool.and_eq_true, decide_eq_true_eq, h, Memory.above, List.mem_cons,
      forall_eq_or_imp]
    constructor
    · rintro ⟨h1, h2, h3⟩
      exact ⟨⟨h1, fun c hc => lt_trans h1 (h2 c hc)⟩, h2, h3⟩
    · rintro ⟨⟨h1, _⟩, h2, h3⟩
      exact ⟨h1, h2, h3⟩

theorem Memory.mem_store (m : Memory) (x : Nat) (v : Byte) (c : Host.Cell)
    (h : c ∈ Memory.store m x v) : c.1 = x ∨ c ∈ m := by
  induction m with
  | nil => simp [Memory.store] at h; simp [h]
  | cons d m ih =>
    obtain ⟨a, b⟩ := d
    simp only [Memory.store] at h
    split at h
    · simp only [List.mem_cons] at h ⊢
      rcases h with h | h | h <;> simp [h]
    · split at h
      · simp only [List.mem_cons] at h ⊢
        rcases h with h | h <;> simp [h]
      · simp only [List.mem_cons] at h ⊢
        rcases h with h | h
        · simp [h]
        · rcases ih h with h | h <;> simp [h]

/-- A store keeps the canonical form. -/
theorem Memory.wf_store (m : Memory) (x : Nat) (v : Byte) (h : Memory.wf m = true) :
    Memory.wf (Memory.store m x v) = true := by
  induction m with
  | nil => simp [Memory.store, Memory.wf]
  | cons d m ih =>
    obtain ⟨a, b⟩ := d
    rw [Memory.wf_cons] at h
    obtain ⟨h1, h2⟩ := h
    simp only [Memory.store]
    split
    · next hx =>
      rw [Memory.wf_cons, Memory.wf_cons]
      refine ⟨?_, h1, h2⟩
      intro c hc
      rcases List.mem_cons.1 hc with hc | hc
      · simpa [hc] using hx
      · exact lt_trans hx (h1 c hc)
    · split
      · next hx hy => subst hy; rw [Memory.wf_cons]; exact ⟨h1, h2⟩
      · next hx hy =>
        rw [Memory.wf_cons]
        refine ⟨?_, ih h2⟩
        intro c hc
        rcases Memory.mem_store m x v c hc with hc | hc
        · simp only [hc]; omega
        · exact h1 c hc

/-- A store below the bound keeps the bound. -/
theorem Memory.within_store (n : Nat) (m : Memory) (x : Nat) (v : Byte) (hx : x < n)
    (h : Memory.within n m = true) : Memory.within n (Memory.store m x v) = true := by
  simp only [Memory.within, List.all_eq_true, decide_eq_true_eq] at h ⊢
  intro c hc
  rcases Memory.mem_store m x v c hc with hc | hc
  · omega
  · exact h c hc

/-! ### Banks -/

@[simp] theorem bank_setBank_same (sp : Space) (m : Memory) (s : State) : bank sp (setBank sp m s) = m := by
  cases sp <;> simp [bank, setBank]

theorem bank_setBank_other (sp sp' : Space) (m : Memory) (s : State) (h : sp' ≠ sp) :
    bank sp' (setBank sp m s) = bank sp' s := by
  cases sp <;> cases sp' <;> simp_all [bank, setBank]
  next c d =>
    rw [Vector.getElem_set_ne]
    exact fun e => h (Fin.ext e.symm)

/-! ### Bytes -/

@[simp] theorem readByte_writeByte_same (sp : Space) (a : Nat) (v : Byte) (s : State) :
    readByte sp a (writeByte sp a v s) = v := by
  simp [readByte, writeByte, Memory.lookup_store_same]

theorem readByte_writeByte_addr (sp : Space) (a x : Nat) (v : Byte) (s : State) (h : x ≠ a) :
    readByte sp x (writeByte sp a v s) = readByte sp x s := by
  simp [readByte, writeByte, Memory.lookup_store_other _ _ _ _ h]

theorem readByte_writeByte_space (sp sp' : Space) (a x : Nat) (v : Byte) (s : State) (h : sp' ≠ sp) :
    readByte sp' x (writeByte sp a v s) = readByte sp' x s := by
  simp [readByte, writeByte, bank_setBank_other _ _ _ _ h]

theorem bank_writeByte_space (sp sp' : Space) (a : Nat) (v : Byte) (s : State) (h : sp' ≠ sp) :
    bank sp' (writeByte sp a v s) = bank sp' s := by
  simp [writeByte, bank_setBank_other _ _ _ _ h]

/-- Reading depends only on the space's memory and the epoch. -/
theorem readByte_congr (sp : Space) (a : Nat) (s t : State) (hb : bank sp t = bank sp s)
    (he : t.epoch = s.epoch) : readByte sp a t = readByte sp a s := by
  simp [readByte, hb, he]

/-! ### Several bytes -/

theorem memRead_congr (sp : Space) (a n : Nat) (s t : State)
    (h : ∀ x, a ≤ x → x < a + n → readByte sp x t = readByte sp x s) : memRead sp a n t = memRead sp a n s := by
  induction n generalizing a with
  | zero => rfl
  | succ n ih =>
    simp only [memRead]
    rw [h a (by omega) (by omega), ih (a + 1) fun x h1 h2 => h x (by omega) (by omega)]

theorem memRead_lt (sp : Space) (a n : Nat) (s : State) : memRead sp a n s < 256 ^ n := by
  induction n generalizing a with
  | zero => simp [memRead]
  | succ n ih =>
    have h1 := ih (a + 1)
    have h2 := (readByte sp a s).isLt
    simp only [memRead, pow_succ]
    omega

theorem bank_memWrite_space (sp sp' : Space) (a n v : Nat) (s : State) (h : sp' ≠ sp) :
    bank sp' (memWrite sp a n v s) = bank sp' s := by
  induction n generalizing a v s with
  | zero => rfl
  | succ n ih => simp only [memWrite]; rw [ih, bank_writeByte_space _ _ _ _ _ h]

/-- Every memory operation keeps the canonical form. -/
theorem bank_memWrite_wf (sp : Space) (a n v : Nat) (s : State) (h : Memory.wf (bank sp s) = true) :
    Memory.wf (bank sp (memWrite sp a n v s)) = true := by
  induction n generalizing a v s with
  | zero => exact h
  | succ n ih =>
    refine ih _ _ _ ?_
    simp [writeByte, Memory.wf_store _ _ _ h]

/-- A write inside the bound keeps the bound. -/
theorem bank_memWrite_within (sp : Space) (a n v b : Nat) (s : State) (hb : a + n ≤ b)
    (h : Memory.within b (bank sp s) = true) :
    Memory.within b (bank sp (memWrite sp a n v s)) = true := by
  induction n generalizing a v s with
  | zero => exact h
  | succ n ih =>
    refine ih _ _ _ (by omega) ?_
    simp [writeByte, Memory.within_store b _ a _ (by omega) h]

/-- At reset every memory has the canonical form. -/
theorem reset_memories_wf (sp : Space) : Memory.wf (bank sp State.reset) = true := by
  cases sp <;> simp [bank, State.reset, State.resetFor, Memory.wf]

end Sys2Proof.Machine
end

