-- ==== Sys2Proof/Laws/Ops.lean ====
section
/-! SUPPORT. What each shared operation can answer: acceptance, completion, a command, the turns, the step. -/

namespace Sys2Proof.Machine

/-! ### Decoding the words the encoder writes -/

/-- The five commands OP can hold (43_system.md R192). -/
theorem inProgress_cases (s : State) (i : Instr) (h : inProgress s = some i) :
    (s.op = 0x01 ∧ i = .kderive) ∨ (s.op = 0x02 ∧ i = .encblk) ∨ (s.op = 0x03 ∧ i = .decblk) ∨
      (s.op = 0x04 ∧ i = .make) ∨ (s.op = 0x05 ∧ i = .decrypt s.ctxl.toNat) := by
  unfold inProgress at h
  split at h
  · simp_all
  · split at h
    · simp_all
    · split at h
      · simp_all
      · split at h
        · simp_all
        · split at h
          · simp_all
          · simp at h

theorem inProgress_kderive (s : State) (h : s.op = 0x01) : inProgress s = some .kderive := by
  simp [inProgress, h]

theorem inProgress_encblk (s : State) (h : s.op = 0x02) : inProgress s = some .encblk := by
  simp [inProgress, h]

theorem inProgress_decblk (s : State) (h : s.op = 0x03) : inProgress s = some .decblk := by
  simp [inProgress, h]

theorem inProgress_make (s : State) (h : s.op = 0x04) : inProgress s = some .make := by
  simp [inProgress, h]

theorem inProgress_decrypt (s : State) (h : s.op = 0x05) : inProgress s = some (.decrypt s.ctxl.toNat) := by
  simp [inProgress, h]

/-! ### Acceptance -/

/-- What an acceptance can do: nothing while ERR is set, record a code, or latch the command. -/
theorem accept_cases (i : Instr) (check : State → Option ErrCode) (s : State) :
    (s.err ≠ 0 ∧ accept i check s = s) ∨
    (s.err = 0 ∧ ∃ c, check s = some c ∧ accept i check s = { s with err := c.code }) ∨
    (s.err = 0 ∧ check s = none ∧ accept i check s = latch i s) := by
  unfold accept
  by_cases he : s.err = 0
  · cases hc : check s with
    | none => simp [he]
    | some c => simp [he, refuse]
  · exact .inl ⟨he, if_pos he⟩

/-! ### A command -/

/-- What a command other than CLRERR can answer with a next state: it completes, it is refused because the engine
is busy with another one, or it goes through acceptance. -/
theorem command_cases (i : Instr) (check : State → Option ErrCode) (fits : State → Bool)
    (body : State → State) (s t : State) (h : command i check fits body s = .next t) :
    (s.busy = true ∧ inProgress s = some i ∧ fits s = true ∧ t = finish (body s)) ∨
    (s.busy = true ∧ inProgress s ≠ some i ∧ t = refuse .busy s) ∨
    (s.busy = false ∧ t = accept i check s) := by
  unfold command at h
  by_cases hb : s.busy = true
  · by_cases hi : inProgress s = some i
    · by_cases hf : fits s = true
      · left; simp_all
      · simp_all
    · right; left; simp_all
  · right; right; simp_all

theorem command_completes (i : Instr) (check : State → Option ErrCode) (fits : State → Bool)
    (body : State → State) (s : State) (hb : s.busy = true) (hi : inProgress s = some i)
    (hf : fits s = true) : command i check fits body s = .next (finish (body s)) := by
  simp [command, hb, hi, hf]

theorem command_idle (i : Instr) (check : State → Option ErrCode) (fits : State → Bool)
    (body : State → State) (s : State) (hb : s.busy = false) :
    command i check fits body s = .next (accept i check s) := by
  simp [command, hb]

/-! ### The body and the checks of each command, so that `exec` is opened once -/

/-- The pseudocode a completion runs (43_system.md R192). -/
def bodyOf (i : Instr) (s : State) : State :=
  match i with
  | .kderive => deriveKey s
  | .encblk => encryptBlock s
  | .decblk => decryptBlock s
  | .make => buildContainer s
  | .decrypt c => decryptContainer c s
  | .clrerr => s

/-- The check of step 4 of 43_system.md R190. -/
def checkOf (i : Instr) (s : State) : Option ErrCode :=
  match i with
  | .kderive => none
  | .encblk => keyCheck s
  | .decblk => keyCheck s
  | .make => lengthCheck s
  | .decrypt c => containerCheck c s
  | .clrerr => none

/-- Whether a completion stays inside its memories. -/
def fitsOf (i : Instr) (s : State) : Bool :=
  match i with
  | .kderive => true
  | .encblk => true
  | .decblk => true
  | .make => makeFits s
  | .decrypt c => decryptFits c s
  | .clrerr => true

theorem exec_eq_command (i : Instr) (s : State) (h : i ≠ .clrerr) :
    exec i s = command i (checkOf i) (fitsOf i) (bodyOf i) s := by
  cases i <;> first | rfl | exact absurd rfl h

theorem exec_idle (i : Instr) (s : State) (h : i ≠ .clrerr) (hb : s.busy = false) :
    exec i s = .next (accept i (checkOf i) s) := by
  rw [exec_eq_command i s h, command_idle _ _ _ _ _ hb]

theorem exec_clrerr_idle (s : State) (hb : s.busy = false) : exec .clrerr s = .next (clearError s) := by
  simp [exec, execClrerr, hb]

theorem exec_completes (i : Instr) (s : State) (hb : s.busy = true) (hi : inProgress s = some i)
    (hf : fitsOf i s = true) : exec i s = .next (finish (bodyOf i s)) := by
  have h : i ≠ .clrerr := by
    rintro rfl
    rcases inProgress_cases s _ hi with h | h | h | h | h <;> simp at h
  rw [exec_eq_command i s h, command_completes _ _ _ _ _ hb hi hf]

/-- Whatever an exec in progress answers, it is the completion. -/
theorem exec_inProgress (i : Instr) (s t : State) (hb : s.busy = true) (hi : inProgress s = some i)
    (h : exec i s = .next t) : fitsOf i s = true ∧ t = finish (bodyOf i s) := by
  have hc : i ≠ .clrerr := by
    rintro rfl
    rcases inProgress_cases s _ hi with h | h | h | h | h <;> simp at h
  rw [exec_eq_command i s hc] at h
  rcases command_cases _ _ _ _ _ _ h with h | h | h
  · exact ⟨h.2.2.1, h.2.2.2⟩
  · exact absurd hi h.2.1
  · simp [hb] at h

/-! ### The turns and the step -/

theorem target_cmd (p : Params) (a : Access) :
    target p a = some .cmd ↔ a.bytes = 4 ∧ a.addr = 0 := by
  unfold target
  constructor
  · intro h
    split at h
    · next h1 =>
      refine ⟨h1.1, ?_⟩
      unfold locate at h
      split at h
      · have : a.addr.toNat = 0 := by
          by_contra hne
          simp only [registerMap, List.lookup] at h
          repeat' split at h
          all_goals simp_all
        exact BitVec.eq_of_toNat_eq (by simpa using this)
      · split at h
        · split at h <;> simp at h
        · split at h
          · split at h <;> simp at h
          · simp only at h
            split at h <;> simp at h
    · simp at h
  · rintro ⟨h1, h2⟩
    simp [h1, h2, locate, registerMap]

/-- What a step does, input by input. -/
theorem step_cases (s : State) :
    (∃ rest, ((s.inputs = [] ∧ rest = []) ∨ s.inputs = .engine :: rest) ∧
      step s = engineTurn (advance rest s)) ∨
    (∃ a rest, s.inputs = .bus a :: rest ∧ step s = busTurn a (advance rest s)) ∨
    (∃ rest, s.inputs = .reset :: rest ∧ step s = .next (applyReset (advance rest s))) := by
  unfold step takeInput
  cases h : s.inputs with
  | nil => exact .inl ⟨[], .inl ⟨rfl, rfl⟩, rfl⟩
  | cons x rest =>
    cases x with
    | engine => exact .inl ⟨rest, .inr rfl, rfl⟩
    | bus a => exact .inr (.inl ⟨a, rest, rfl, rfl⟩)
    | reset => exact .inr (.inr ⟨rest, rfl, rfl⟩)

theorem step_bus (s : State) (a : Access) (rest : List Input) (h : s.inputs = .bus a :: rest) :
    step s = busTurn a (advance rest s) := by
  simp [step, takeInput, h]

theorem step_engine (s : State) (rest : List Input) (h : s.inputs = .engine :: rest) :
    step s = engineTurn (advance rest s) := by
  simp [step, takeInput, h]

theorem step_none (s : State) (h : s.inputs = []) : step s = engineTurn (advance [] s) := by
  simp [step, takeInput, h]

theorem step_reset (s : State) (rest : List Input) (h : s.inputs = .reset :: rest) :
    step s = .next (applyReset (advance rest s)) := by
  simp [step, takeInput, h]

/-- What the engine's turn can answer with a next state: nothing while idle, else the completion. -/
theorem engineTurn_cases (s t : State) (h : engineTurn s = .next t) :
    (s.busy = false ∧ t = s) ∨
    (s.busy = true ∧ ∃ i, inProgress s = some i ∧ fitsOf i s = true ∧ t = finish (bodyOf i s)) := by
  unfold engineTurn at h
  cases hb : s.busy with
  | false => simp [hb] at h; exact .inl ⟨rfl, h.symm⟩
  | true =>
    cases hi : inProgress s with
    | none => simp [hb, hi] at h
    | some i =>
      simp [hb, hi] at h
      obtain ⟨h1, h2⟩ := exec_inProgress i s t hb hi h
      exact .inr ⟨rfl, i, rfl, h1, h2⟩

/-- What a store to a place other than CMD can do: a register, four bytes of TXT, or a refusal. -/
theorem storeLoc_cases (l : Loc) (w : Word) (s : State) :
    (l = .len ∧ storeLoc l w s = { s with len := w }) ∨
    (∃ j, l = .seed j ∧ storeLoc l w s = { s with seed := s.seed.set j.val w j.isLt }) ∨
    (l = .v0 ∧ storeLoc l w s = { s with v0 := w }) ∨
    (l = .v1 ∧ storeLoc l w s = { s with v1 := w }) ∨
    (∃ p, l = .txt p ∧ storeLoc l w s = memWrite .txt p 4 w.toNat s) ∨
    storeLoc l w s = refuse .bus s := by
  cases l <;> simp [storeLoc]

/-- What a bus read can do: return data, draw a free value, or be refused; only ERR, the reply and the count of
draws change. -/
theorem busRead_cases (a : Access) (s : State) :
    (s.busy = true ∧ (∃ w, busRead a s = respond w s)) ∨
    (s.busy = true ∧ busRead a s = respondFree s) ∨
    (s.busy = false ∧ ∃ l, target s.params a = some l ∧ busRead a s = respond (loadLoc l s) s) ∨
    (s.busy = false ∧ target s.params a = none ∧ busRead a s = respond 0 (refuse .bus s)) := by
  unfold busRead
  split
  · next h1 h2 => exact .inl ⟨h1, _, rfl⟩
  · next h1 h2 => exact .inl ⟨h1, _, rfl⟩
  · next h1 _ _ => exact .inr (.inl ⟨h1, rfl⟩)
  · next l h1 h2 => exact .inr (.inr (.inl ⟨h1, l, h2, rfl⟩))
  · next h1 h2 => exact .inr (.inr (.inr ⟨h1, h2, rfl⟩))

/-- What a bus write can answer with a next state. -/
theorem busWrite_cases (a : Access) (w : Word) (s t : State) (h : busWrite a w s = .next t) :
    (s.busy = true ∧ t = refuse .busy s) ∨
    (s.busy = false ∧ target s.params a = some .cmd ∧ writeCommand w s = .next t) ∨
    (s.busy = false ∧ ∃ l, l ≠ .cmd ∧ target s.params a = some l ∧ t = storeLoc l w s) ∨
    (s.busy = false ∧ target s.params a = none ∧ t = refuse .bus s) := by
  unfold busWrite at h
  cases hb : s.busy with
  | true => simp [hb] at h; simp [h]
  | false =>
    simp only [hb, Bool.false_eq_true, ↓reduceIte] at h
    split at h
    · next h1 => simp [h1, h]
    · next l h1 h2 =>
      refine .inr (.inr (.inl ⟨rfl, l, ?_, h2, ?_⟩))
      · exact h1
      · exact (Host.Outcome.next.inj h).symm
    · next h2 => exact .inr (.inr (.inr ⟨rfl, h2, (Host.Outcome.next.inj h).symm⟩))

/-- What an idle CMD write answers: CLRERR, an acceptance, or the refusal of an illegal word. -/
theorem writeCommand_cases (w : Word) (s : State) (hb : s.busy = false) :
    (decode w = .ok .clrerr ∧ writeCommand w s = .next (clearError s)) ∨
    (∃ i, i ≠ .clrerr ∧ decode w = .ok i ∧ writeCommand w s = .next (accept i (checkOf i) s)) ∨
    (∃ e, decode w = .error e ∧ writeCommand w s = .next (refuse .opcode s)) := by
  unfold writeCommand
  cases hd : decode w with
  | error e => exact .inr (.inr ⟨e, rfl, rfl⟩)
  | ok i =>
    by_cases hi : i = .clrerr
    · subst hi
      exact .inl ⟨rfl, exec_clrerr_idle s hb⟩
    · exact .inr (.inl ⟨i, hi, rfl, exec_idle i s hi hb⟩)

end Sys2Proof.Machine
end

