-- ==== Sys2Proof/Laws/Container.lean ====
section
/-! SUPPORT. What the loops of MAKE and DECRYPT and the bodies of the commands can change, said once
(42_container.md R154 to R157, 20_memory.md R66). -/

namespace Sys2Proof.Machine

/-- A `MemWrite` changes its own memory alone; here TXT. -/
theorem memWrite_txt_eq (a n v : Nat) (s : State) :
    memWrite .txt a n v s = { s with txt := (memWrite .txt a n v s).txt } := by
  induction n generalizing a v s with
  | zero => rfl
  | succ n ih => rw [memWrite, ih]; rfl

/-- A `MemWrite` to BLK changes BLK alone. -/
theorem memWrite_blk_eq (a n v : Nat) (s : State) :
    memWrite .blk a n v s = { s with blk := (memWrite .blk a n v s).blk } := by
  induction n generalizing a v s with
  | zero => rfl
  | succ n ih => rw [memWrite, ih]; rfl

/-- A `MemWrite` to an output buffer changes the buffers alone. -/
theorem memWrite_out_eq (c : Fin 16) (a n v : Nat) (s : State) :
    memWrite (.out c) a n v s = { s with out := (memWrite (.out c) a n v s).out } := by
  induction n generalizing a v s with
  | zero => rfl
  | succ n ih => rw [memWrite, ih]; rfl

/-- Storing an entry changes BLK alone. -/
theorem setBlkEntry_eq (j : Nat) (b : Block) (s : State) :
    setBlkEntry j b s = { s with blk := (setBlkEntry j b s).blk } :=
  memWrite_blk_eq _ _ _ _

/-- `OutChunk` changes the output buffers alone. -/
theorem outChunk_eq (c : Fin 16) (n off : Nat) (v0 v1 : Word) (s : State) :
    outChunk (.out c) n off v0 v1 s = { s with out := (outChunk (.out c) n off v0 v1 s).out } := by
  unfold outChunk
  generalize 8 = m
  induction m with
  | zero => rfl
  | succ m ih =>
    rw [forUpTo]
    generalize forUpTo (outByte (.out c) n off v0 v1) m s = t at *
    unfold outByte
    split
    · rw [memWrite_out_eq, ih]
    · exact ih

/-- `OutChunk` into one buffer leaves every other memory. -/
theorem bank_outChunk_other (c : Fin 16) (sp : Space) (n off : Nat) (v0 v1 : Word) (s : State)
    (h : sp ≠ .out c) : bank sp (outChunk (.out c) n off v0 v1 s) = bank sp s := by
  unfold outChunk
  generalize 8 = m
  induction m with
  | zero => rfl
  | succ m ih =>
    rw [forUpTo, ← ih]
    generalize forUpTo (outByte (.out c) n off v0 v1) m s = t
    unfold outByte
    split
    · exact bank_memWrite_space _ _ _ _ _ _ h
    · rfl

/-- The loop of MAKE changes BLK alone. -/
theorem makeLoop_eq (n bc : Nat) (k : Key) (m : Nat) (s : State) :
    forUpTo (makeStep n bc k) m s = { s with blk := (forUpTo (makeStep n bc k) m s).blk } := by
  induction m with
  | zero => rfl
  | succ m ih =>
    rw [forUpTo]
    generalize forUpTo (makeStep n bc k) m s = t at *
    unfold makeStep
    simp only
    rw [setBlkEntry_eq, ih]

/-- The loop of DECRYPT changes the output buffers alone. -/
theorem decryptLoop_eq (c : Fin 16) (n bc : Nat) (k : Key) (m : Nat) (s : State) :
    forUpTo (decryptStep (.out c) n bc k) m s =
      { s with out := (forUpTo (decryptStep (.out c) n bc k) m s).out } := by
  induction m with
  | zero => rfl
  | succ m ih =>
    rw [forUpTo]
    generalize forUpTo (decryptStep (.out c) n bc k) m s = t at *
    unfold decryptStep
    simp only
    rw [outChunk_eq, ih]

/-- The loop of DECRYPT into one buffer leaves every other memory. -/
theorem bank_decryptLoop_other (c : Fin 16) (sp : Space) (n bc : Nat) (k : Key) (m : Nat) (s : State)
    (h : sp ≠ .out c) : bank sp (forUpTo (decryptStep (.out c) n bc k) m s) = bank sp s := by
  induction m with
  | zero => rfl
  | succ m ih =>
    rw [forUpTo, ← ih]
    generalize forUpTo (decryptStep (.out c) n bc k) m s = t
    exact bank_outChunk_other _ _ _ _ _ _ _ h

/-- Everything the pseudocode of MAKE writes. -/
theorem buildContainer_eq (s : State) :
    buildContainer s =
      { s with
        ckey := keyDerive s.seed, clen := s.len, bcnt := BitVec.ofNat 32 (blockCount s.len.toNat)
        cvalid := true, blk := (buildContainer s).blk } := by
  unfold buildContainer
  simp only
  rw [makeLoop_eq]
  rfl

/-- Everything the pseudocode of DECRYPT writes. -/
theorem decryptContainer_eq (c : Nat) (s : State) :
    decryptContainer c s =
      { s with ovalid := s.ovalid ||| (1#16 <<< c), out := (decryptContainer c s).out } := by
  simp only [decryptContainer, closeView, outSpace]
  generalize hx : forUpTo (decryptStep (.out (Fin.ofNat 16 c)) s.clen.toNat s.bcnt.toNat s.ckey)
    s.bcnt.toNat s = x
  have h : x = { s with out := x.out } := by rw [← hx]; exact decryptLoop_eq _ _ _ _ _ _
  rw [h]
  rfl

/-- DECRYPT of one context leaves the buffer of every other. -/
theorem decryptContainer_out_other (c : Nat) (s : State) (d : Fin 16) (h : d.val ≠ c % 16) :
    (decryptContainer c s).out[d.val] = s.out[d.val] := by
  have hne : Space.out d ≠ outSpace c := by
    intro e
    injection e with e
    exact h (by rw [e]; rfl)
  have h1 := bank_decryptLoop_other (Fin.ofNat 16 c) (.out d) s.clen.toNat s.bcnt.toNat s.ckey
    s.bcnt.toNat s hne
  exact (bank_memWrite_space (outSpace c) (.out d) (s.clen.toNat - 1) 1 0 _ hne).trans h1

end Sys2Proof.Machine
end

