-- ==== Sys2Proof/Laws/PerInstr.lean ====
section
/-! SUPPORT. A law said of every command: what its command word holds, field by field (30_encoding.md R91, R92). -/

namespace Sys2Proof.Laws.EncodingFields

/-- The opcode of a command (30_encoding.md R92). -/
def opcodeOf : Instr → BitVec 8
  | .kderive => 0x01
  | .encblk => 0x02
  | .decblk => 0x03
  | .make => 0x04
  | .decrypt _ => 0x05
  | .clrerr => 0x0F

/-- RSV is 0, OPC is the command's opcode, and CTX is 0 unless the command is DECRYPT (30_encoding.md R91). -/
def Statement (i : Instr) : Prop :=
  rsvField (encode i) = 0 ∧ opcField (encode i) = opcodeOf i ∧
    ctxField (encode i) = (match i with
      | .kderive => 0
      | .encblk => 0
      | .decblk => 0
      | .make => 0
      | .decrypt c => BitVec.ofNat 4 c
      | .clrerr => 0)

theorem kderive : Statement .kderive := ⟨by decide, by decide, by decide⟩
theorem encblk : Statement .encblk := ⟨by decide, by decide, by decide⟩
theorem decblk : Statement .decblk := ⟨by decide, by decide, by decide⟩
theorem make : Statement .make := ⟨by decide, by decide, by decide⟩
theorem clrerr : Statement .clrerr := ⟨by decide, by decide, by decide⟩

/-- The three fields of a DECRYPT word, for each of the sixteen context numbers. -/
theorem decrypt_word : ∀ x : BitVec 4, rsvField (formatC x 0x05) = 0 ∧ opcField (formatC x 0x05) = 0x05 ∧
    ctxField (formatC x 0x05) = x := by decide

theorem decrypt (c : Nat) : Statement (.decrypt c) := decrypt_word (BitVec.ofNat 4 c)

end Sys2Proof.Laws.EncodingFields
end

