-- ==== Sys2Proof/Laws/Step.lean ====
section
/-! SUPPORT. Everything one step can do, said once: a proof about all steps cites `step_next_cases`. -/

namespace Sys2Proof.Machine

/-- The next thing to happen is the engine's turn, and `rest` is what is left of the inputs. -/
def EngineNext (s : State) (rest : List Input) : Prop :=
  (s.inputs = [] ∧ rest = []) ∨ s.inputs = .engine :: rest

/-- `t` is `s` after a store of `w` to the place `l`: LEN, a SEED register, V0, V1 or a TXT word. -/
def StoredAt (l : Loc) (w : Word) (s t : State) : Prop :=
  (l = .len ∧ t = { s with len := w }) ∨
  (∃ j : Fin 4, l = .seed j ∧ t = { s with seed := s.seed.set j.val w j.isLt }) ∨
  (l = .v0 ∧ t = { s with v0 := w }) ∨
  (l = .v1 ∧ t = { s with v1 := w }) ∨
  (∃ p, l = .txt p ∧ t = memWrite .txt p 4 w.toNat s ∧ t = { s with txt := t.txt })

theorem refuse_eq_ite (c : ErrCode) (s : State) :
    refuse c s = { s with err := if s.err = 0 then c.code else s.err } := by
  unfold refuse
  split <;> rfl

theorem ErrCode.code_le (c : ErrCode) : c.code.toNat ≤ 7 := by
  cases c <;> decide

/-- A bus transaction that leaves everything but ERR, the reply and the count of draws, and ERR too unless it was
0. -/
def OnlyErr (s t : State) (rest : List Input) : Prop :=
  ∃ e r d, t = { advance rest s with err := e, reply := r, draws := d } ∧
    (e = s.err ∨ (s.err = 0 ∧ e.toNat ≤ 7))

theorem refuse_onlyErr (c : ErrCode) (s : State) (rest : List Input) :
    OnlyErr s (refuse c (advance rest s)) rest := by
  refine ⟨if s.err = 0 then c.code else s.err, none, s.draws, refuse_eq_ite _ _, ?_⟩
  split
  · next h => exact .inr ⟨h, c.code_le⟩
  · exact .inl rfl

theorem busRead_onlyErr (a : Access) (s : State) (rest : List Input) :
    OnlyErr s (busRead a (advance rest s)) rest := by
  rcases busRead_cases a (advance rest s) with ⟨_, w, h⟩ | ⟨_, h⟩ | ⟨_, l, _, h⟩ | ⟨_, _, h⟩
  · exact ⟨s.err, _, s.draws, h, .inl rfl⟩
  · exact ⟨s.err, _, _, h, .inl rfl⟩
  · exact ⟨s.err, _, s.draws, h, .inl rfl⟩
  · refine ⟨if s.err = 0 then 7 else s.err, some 0, s.draws, by rw [h, refuse_eq_ite]; rfl, ?_⟩
    split
    · next h0 => exact .inr ⟨h0, by decide⟩
    · exact .inl rfl

/-- What a step that answers `t` did: a reset; nothing; a completion; a bus transaction that touched at most ERR; a
CLRERR; an acceptance; a store. -/
def StepEffect (s t : State) : Prop :=
  (∃ rest, s.inputs = .reset :: rest ∧ t = applyReset (advance rest s)) ∨
  (∃ rest, EngineNext s rest ∧ s.busy = false ∧ t = advance rest s) ∨
  (∃ rest i, EngineNext s rest ∧ s.busy = true ∧ inProgress s = some i ∧
    fitsOf i (advance rest s) = true ∧ t = finish (bodyOf i (advance rest s))) ∨
  (∃ a rest, s.inputs = .bus a :: rest ∧ OnlyErr s t rest) ∨
  (∃ w rest, s.inputs = commandWrite w :: rest ∧ s.busy = false ∧ decode w = .ok .clrerr ∧
    t = clearError (advance rest s)) ∨
  (∃ w rest i, s.inputs = commandWrite w :: rest ∧ s.busy = false ∧ s.err = 0 ∧ decode w = .ok i ∧
    i ≠ .clrerr ∧ checkOf i (advance rest s) = none ∧ t = latch i (advance rest s)) ∨
  (∃ ad w rest l, s.inputs = .bus ⟨ad, 4, some w⟩ :: rest ∧ s.busy = false ∧ ad.toNat % 4 = 0 ∧
    locate s.params ad.toNat = some l ∧ StoredAt l w (advance rest s) t)

theorem step_next_cases (s t : State) (h : step s = .next t) : StepEffect s t := by
  rcases step_cases s with ⟨rest, he, hs⟩ | ⟨⟨ad, n, data⟩, rest, hi, hs⟩ | ⟨rest, hi, hs⟩
  · rw [h] at hs
    rcases engineTurn_cases _ _ hs.symm with ⟨hb, ht⟩ | ⟨hb, i, hp, hf, ht⟩
    · exact .inr (.inl ⟨rest, he, hb, ht⟩)
    · exact .inr (.inr (.inl ⟨rest, i, he, hb, hp, hf, ht⟩))
  · rw [h] at hs
    have only : OnlyErr s t rest → StepEffect s t := fun ho => .inr (.inr (.inr (.inl ⟨_, rest, hi, ho⟩)))
    cases data with
    | none =>
      rw [Host.Outcome.next.inj hs] at only ⊢
      exact only (busRead_onlyErr _ s rest)
    | some w =>
      rcases busWrite_cases _ w _ _ hs.symm with ⟨_, ht⟩ | ⟨hb, hc, ht⟩ | ⟨hb, l, _, hl, ht⟩ | ⟨_, _, ht⟩
      · exact only (ht ▸ refuse_onlyErr .busy s rest)
      · obtain ⟨h4, h0⟩ := (target_cmd _ _).1 hc
        have hw : s.inputs = commandWrite w :: rest := by
          simp only at h4 h0
          rw [hi, h4, h0]
          rfl
        rcases writeCommand_cases w (advance rest s) hb with ⟨hd, h2⟩ | ⟨i, hne, hd, h2⟩ | ⟨e, hd, h2⟩
        · exact .inr (.inr (.inr (.inr (.inl
            ⟨w, rest, hw, hb, hd, Host.Outcome.next.inj (ht.symm.trans h2)⟩))))
        · have h3 := Host.Outcome.next.inj (ht.symm.trans h2)
          rcases accept_cases i (checkOf i) (advance rest s) with ⟨_, ha⟩ | ⟨h5, c, _, ha⟩ | ⟨h5, hk, ha⟩
          · exact only ⟨s.err, none, s.draws, h3.trans ha, .inl rfl⟩
          · exact only ⟨c.code, none, s.draws, h3.trans ha, .inr ⟨h5, c.code_le⟩⟩
          · exact .inr (.inr (.inr (.inr (.inr (.inl ⟨w, rest, i, hw, hb, h5, hd, hne, hk, h3.trans ha⟩)))))
        · exact only (Host.Outcome.next.inj (ht.symm.trans h2) ▸ refuse_onlyErr .opcode s rest)
      · unfold target at hl
        split at hl
        · next h4 =>
          have hn : n = 4 := h4.1
          have store : StoredAt l w (advance rest s) t → StepEffect s t := fun hst =>
            .inr (.inr (.inr (.inr (.inr (.inr ⟨ad, w, rest, l, by rw [hi, hn], hb, h4.2, hl, hst⟩)))))
          rcases storeLoc_cases l w (advance rest s) with
            ⟨h5, h6⟩ | ⟨j, h5, h6⟩ | ⟨h5, h6⟩ | ⟨h5, h6⟩ | ⟨p, h5, h6⟩ | h6
          · exact store (.inl ⟨h5, ht.trans h6⟩)
          · exact store (.inr (.inl ⟨j, h5, ht.trans h6⟩))
          · exact store (.inr (.inr (.inl ⟨h5, ht.trans h6⟩)))
          · exact store (.inr (.inr (.inr (.inl ⟨h5, ht.trans h6⟩))))
          · refine store (.inr (.inr (.inr (.inr ⟨p, h5, ht.trans h6, ?_⟩))))
            rw [ht.trans h6]
            exact memWrite_txt_eq _ _ _ _
          · exact only ((ht.trans h6) ▸ refuse_onlyErr .bus s rest)
        · exact absurd hl (by simp)
      · exact only (ht ▸ refuse_onlyErr .bus s rest)
  · exact .inl ⟨rest, hi, Host.Outcome.next.inj (h.symm.trans hs)⟩

end Sys2Proof.Machine
end

