-- ==== Sys2Proof/Tests/Slice0.lean ====
section
/-! SUPPORT. Small tests: expected values from the spec's own words and from 95_test_vectors.md, and for every
statement with hypotheses a state and operands that meet them. -/

namespace Sys2Proof.Tests

open Sys2Proof.Machine

/-! ### States to test on -/

/-- The next state of an outcome. -/
def after (o : Host.Outcome State Fault Refusal) : Option State :=
  match o with
  | .next s => some s
  | .fault _ => none
  | .refused _ => none

/-- NMAX 256, NCTX 4, GUARD5 true, DEFAULT_SEED (1, 2, 3, 4). -/
def small : Params := ⟨256, 4, true, #v[1, 2, 3, 4]⟩

/-- The same without the guard of 00_scope.md R12. -/
def unguarded : Params := ⟨256, 4, false, #v[1, 2, 3, 4]⟩

/-- K1 of vector V4. -/
def k1 : Key := #v[0x00112233, 0x44556677, 0x8899AABB, 0xCCDDEEFF]

/-- The key (3, 1, 4, 2) of vector V4. -/
def kh : Key := #v[3, 1, 4, 2]

/-- An idle machine with the text "HELLO" in TXT, its container in BLK, and key K1. -/
def ready : State :=
  { State.resetFor small 0 0 with
    key := k1, v0 := 0x01234567, v1 := 0x89ABCDEF, res := 0x5B9940AC74A29848, len := 6
    clen := 6, bcnt := 1, ckey := kh, kvalid := true, cvalid := true, rvalid := true
    op := 0, ctxl := 0, scratch := ⟨0, 0, 0, 0, 0⟩
    txt := [(0, 0x48), (1, 0x45), (2, 0x4C), (3, 0x4C), (4, 0x4F), (5, 0), (6, 0), (7, 0)]
    blk := [(0, 0x8B), (1, 0xD0), (2, 0x57), (3, 0xE8), (4, 0x87), (5, 0x32), (6, 0xF3), (7, 0xD8)]
    out := #v[[(0, 0x48), (1, 0x45), (2, 0x4C), (3, 0x4C)], [], [], [], [], [], [], [], [], [], [], [], [], [], [], []] }

/-- The same machine with the command `op`, context `c`, in progress. -/
def running (op : BitVec 8) (c : BitVec 4) : State := { ready with op := op, ctxl := c, busy := true }

/-- The same machine after a refusal with code `e`. -/
def failed (e : BitVec 4) : State := { ready with err := e }

/-- A state with one input to come. -/
def given (i : Input) (s : State) : State := { s with inputs := [i] }

/-- A read of four bytes at an offset. -/
def readAt (off : BitVec 17) : Input := .bus ⟨off, 4, none⟩

/-- A write of four bytes at an offset. -/
def writeAt (off : BitVec 17) (w : Word) : Input := .bus ⟨off, 4, some w⟩

/-- The state that the MAKE of "HELLO" leaves. -/
def made : State := (after (exec .make (running 4 0))).getD ready

/-- A machine without the guard and a length of the collapsing kind (vector V13). -/
def collapsing (op : BitVec 8) : State :=
  { running op 0 with params := unguarded, len := 37, clen := 37, bcnt := 5 }

/-! ### Which commands and parameters are well formed -/

theorem test_context_16_is_ill_formed : (Instr.decrypt 16).wf = false := by decide
theorem test_context_15_is_well_formed : (Instr.decrypt 15).wf = true := by decide
theorem test_nmax_not_multiple_of_8_is_ill_formed : Params.wf ⟨252, 4, true, kh⟩ = false := by decide
theorem test_nmax_0_is_ill_formed : Params.wf ⟨0, 4, true, kh⟩ = false := by decide
theorem test_nmax_above_4096_is_ill_formed : Params.wf ⟨4104, 4, true, kh⟩ = false := by decide
theorem test_nctx_0_is_ill_formed : Params.wf ⟨256, 0, true, kh⟩ = false := by decide
theorem test_nctx_17_is_ill_formed : Params.wf ⟨256, 17, true, kh⟩ = false := by decide
theorem test_extreme_parameters_are_well_formed :
    Params.wf ⟨8, 1, false, kh⟩ = true ∧ Params.wf ⟨4096, 16, true, kh⟩ = true := by decide

/-! ### Decoding, each word written out as RSV, CTX, OPC (30_encoding.md R91, R92; vector V10) -/

theorem test_decode_kderive : decode (0b00000000000000000000#20 ++ 0b0000#4 ++ 0b00000001#8) = .ok .kderive := by
  decide
theorem test_decode_encblk : decode (0b00000000000000000000#20 ++ 0b0000#4 ++ 0b00000010#8) = .ok .encblk := by
  decide
theorem test_decode_decblk : decode (0b00000000000000000000#20 ++ 0b0000#4 ++ 0b00000011#8) = .ok .decblk := by
  decide
theorem test_decode_make : decode (0b00000000000000000000#20 ++ 0b0000#4 ++ 0b00000100#8) = .ok .make := by
  decide
theorem test_decode_decrypt_9 :
    decode (0b00000000000000000000#20 ++ 0b1001#4 ++ 0b00000101#8) = .ok (.decrypt 9) := by decide
theorem test_decode_clrerr : decode (0b00000000000000000000#20 ++ 0b0000#4 ++ 0b00001111#8) = .ok .clrerr := by
  decide
theorem test_decode_refuses_the_illegal_words_of_v10 :
    ([0x00000000, 0x00000006, 0x0000000E, 0x00000010, 0x000000FF, 0x00000101, 0x00000102, 0x00000F0F, 0x00001005,
      0x80000004, 0xFFFFFFFF] : List Word).all (fun w => (decode w).toOption.isNone) = true := by decide
theorem test_table_word : decodeTableWord 32 0x305 = some (.decrypt 3) := by decide

/-! ### Function values (vectors V2, V3, V4, V8) -/

theorem test_feistel_logical_right_shift : feistel 0x80000000 0 0 0 = 0x84000000 := by decide
theorem test_feistel_general :
    feistel 0x12345678 0x9E3779B9 0xA5A5A5A5 0x5A5A5A5A = 0x226B2019 := by decide
theorem test_initsum : initSum = 0x8DDE6E40 := by decide
theorem test_dec_of_zero : dec 0 0 #v[0, 0, 0, 0] = 0x8AF14A38D4A420CF := by decide +kernel
theorem test_pack_second_chunk :
    pack32LE 17 8 { ready with txt := [(8, 0x38), (9, 0x39), (10, 0x41), (11, 0x42)] } = 0x42413938 := by decide
theorem test_pack_skips_the_terminator : pack32LE 6 4 { ready with txt := [(4, 0x4F), (5, 0xFF)] } = 0x4F := by
  decide

/-! ### One step of each command -/

theorem test_kderive_accepted : (after (exec .kderive { ready with done := true })).map statusWord = some 0x1D := by
  decide
theorem test_kderive_completes :
    (after (exec .kderive { running 1 0 with seed := #v[0xDEADBEEF, 0x01234567, 0x89ABCDEF, 0x0BADF00D] })).map
      (·.key) = some #v[0x89ABCDEF, 0xDEADBEEF, 0x0BADF00D, 0x01234567] := by decide

theorem test_encblk_refused_without_key :
    (after (exec .encblk { ready with kvalid := false })).map (·.err) = some 4 := by decide
theorem test_encblk_completes :
    (after (exec .encblk (running 2 0))).map (·.res) = some 0x5B9940AC74A29848 := by decide +kernel

theorem test_decblk_refused_with_pending_error :
    (after (exec .decblk (failed 5))).map (fun t => (t.err, t.busy)) = some (5, false) := by decide
theorem test_decblk_completes :
    (after (exec .decblk { running 3 0 with v0 := 0x5B9940AC, v1 := 0x74A29848 })).map (·.res) =
      some 0x0123456789ABCDEF := by decide +kernel

theorem test_make_refuses_length_34 :
    (after (exec .make { ready with len := 34 })).map (·.err) = some 3 := by decide
theorem test_make_builds_hello :
    (after (exec .make (running 4 0))).map (fun t => (t.ckey, t.bcnt, blkEntry 0 t)) =
      some (kh, 1, 0xD8F33287E857D08B) := by decide +kernel

theorem test_decrypt_context_4_refused :
    (after (exec (.decrypt 4) { ready with cvalid := false })).map (·.err) = some 6 := by decide
theorem test_decrypt_writes_hello :
    (after (exec (.decrypt 2) (running 5 2))).map (fun t => (t.out[2], t.ovalid)) =
      some ([(0, 0x48), (1, 0x45), (2, 0x4C), (3, 0x4C), (4, 0x4F), (5, 0)], 4) := by decide +kernel

theorem test_clrerr_clears : (after (exec .clrerr (failed 3))).map (·.err) = some 0 := by decide
theorem test_clrerr_busy : (after (exec .clrerr (running 4 0))).map (·.err) = some 2 := by decide

/-! ### One step of the bus and of reset (vectors V11, V12) -/

theorem test_read_last_text_word : (after (step (given (readAt 0x10FC)
    { ready with txt := [(252, 1), (253, 2), (254, 3), (255, 4)] }))).map (·.reply) = some (some 0x04030201) := by
  decide
theorem test_read_past_nmax : (after (step (given (readAt 0x1100) ready))).map (fun t => (t.reply, t.err)) =
    some (some 0, 7) := by decide
theorem test_read_block_low_word : (after (step (given (readAt 0x2000) ready))).map (·.reply) =
    some (some 0xE857D08B) := by decide
theorem test_read_out_word : (after (step (given (readAt 0x10000) ready))).map (·.reply) =
    some (some 0x4C4C4548) := by decide
theorem test_write_key_refused : (after (step (given (writeAt 0x020 5) ready))).map (fun t => (t.key, t.err)) =
    some (k1, 7) := by decide
theorem test_reset_of_a_busy_machine :
    (after (step (given .reset (running 4 0)))).map (fun t => (statusWord t, t.seed, t.len)) =
      some (0, #v[1, 2, 3, 4], 0) := by decide

/-! ### Witnesses: states and operands that meet the hypotheses of a statement -/

theorem witness_IllegalWordsAreThoseListed :
    (given (commandWrite 0) ready).inputs = commandWrite 0 :: [] ∧ (given (commandWrite 0) ready).busy = false ∧
      decode 0 = .error .opcode ∧ decode 0x101 = .error .contextBits ∧ decode 0x1005 = .error .reservedBits ∧
      (failed 5).busy = false := by decide

theorem witness_StepRunsTheWrittenCommand :
    (given (commandWrite 0x305) ready).inputs = commandWrite 0x305 :: [] ∧
      (given (commandWrite 0x305) ready).busy = false ∧ decode 0x305 = .ok (.decrypt 3) := by decide

theorem witness_StepCompletesTheLatchedCommand :
    (given .engine (running 5 3)).inputs = .engine :: [] ∧ (running 5 3).inputs = [] ∧
      (running 5 3).busy = true ∧ (running 5 3).op = 0x05 ∧ (running 5 3).ctxl.toNat = 3 ∧
      (running 1 0).op = 0x01 ∧ (running 2 0).op = 0x02 ∧ (running 3 0).op = 0x03 ∧ (running 4 0).op = 0x04 := by
  decide

theorem witness_CommandWriteSequence :
    (given (commandWrite 0x4) ready).inputs = commandWrite 0x4 :: [] ∧
      (given (commandWrite 0x4) (running 1 0)).inputs = commandWrite 0x4 :: [] := by decide

theorem witness_KderiveLoadsThePermutedSeed :
    ready.busy = false ∧ (failed 1).busy = false ∧ (running 1 0).busy = true ∧ (running 1 0).op = 0x01 := by decide

theorem witness_EncblkEncryptsV0V1 :
    ready.busy = false ∧ (running 2 0).busy = true ∧ (running 2 0).op = 0x02 := by decide

theorem witness_DecblkDecryptsV0V1 :
    ready.busy = false ∧ (running 3 0).busy = true ∧ (running 3 0).op = 0x03 := by decide

theorem witness_DecblkInvertsEncblk :
    let u : State := { running 3 0 with v0 := 0x5B9940AC, v1 := 0x74A29848 }
    (running 2 0).busy = true ∧ (running 2 0).op = 0x02 ∧ u.busy = true ∧ u.op = 0x03 ∧ u.key = (running 2 0).key ∧
      (after (exec .encblk (running 2 0))).map (fun t => (blockHi t.res, blockLo t.res)) = some (u.v0, u.v1) := by
  decide +kernel

theorem witness_BlockCountBands :
    (1 ≤ 1 ∧ blockCount 1 = 0) ∧ Params.wf ⟨4096, 16, true, kh⟩ = true ∧ 1 ≤ 4096 ∧ 511 < blockCount 4096 := by
  decide

theorem witness_ScrambleIsBijectiveUnlessMultipleOfFive : 0 < 1 ∧ 0 < 5 ∧ 5 % 5 = 0 := by decide

theorem witness_SupportedLengthsSkipTheBands : ready.busy = false ∧ ready.err = 0 := by decide

theorem witness_MakeBuildsTheContainer :
    ready.busy = false ∧ (running 4 0).busy = true ∧ (running 4 0).op = 0x04 ∧ (running 4 0).params.wf = true ∧
      1 ≤ (running 4 0).len.toNat ∧ (running 4 0).len.toNat ≤ (running 4 0).params.nmax ∧
      (collapsing 4).busy = true ∧ (collapsing 4).op = 0x04 ∧ (collapsing 4).params.wf = true ∧
      1 ≤ (collapsing 4).len.toNat ∧ (collapsing 4).len.toNat ≤ (collapsing 4).params.nmax := by decide

theorem witness_EveryEntryEncryptsItsOwnChunk :
    (running 4 0).busy = true ∧ (running 4 0).op = 0x04 ∧ (running 4 0).params.wf = true ∧
      supported (running 4 0).params (running 4 0).len.toNat = true ∧
      blockCount (running 4 0).len.toNat % 5 ≠ 0 := by decide

theorem witness_EveryEntryEncryptsItsOwnChunk_empty :
    let s : State := { running 4 0 with len := 1 }
    s.busy = true ∧ s.op = 0x04 ∧ s.params.wf = true ∧ supported s.params s.len.toNat = true ∧
      blockCount s.len.toNat = 0 := by decide

theorem witness_CollapseWithoutGuard_make :
    let s := collapsing 4
    s.params.wf = true ∧ s.params.guard5 = false ∧ s.busy = true ∧ s.op = 0x04 ∧
      supported s.params s.len.toNat = true ∧ 0 < blockCount s.len.toNat ∧ blockCount s.len.toNat % 5 = 0 := by decide

theorem witness_CollapseWithoutGuard_decrypt :
    let s := collapsing 5
    s.params.wf = true ∧ s.params.guard5 = false ∧ s.busy = true ∧ s.op = 0x05 ∧ s.ctxl.toNat < s.params.nctx ∧
      supported s.params s.clen.toNat = true ∧ s.bcnt.toNat = blockCount s.clen.toNat ∧
      0 < blockCount s.clen.toNat ∧ blockCount s.clen.toNat % 5 = 0 := by decide

theorem witness_DecryptWritesTheView :
    3 < 16 ∧ ready.busy = false ∧ (running 5 3).busy = true ∧ (running 5 3).op = 0x05 ∧
      (running 5 3).ctxl.toNat = 3 ∧ 3 < (running 5 3).params.nctx ∧ 1 ≤ (running 5 3).clen.toNat ∧
      (running 5 3).clen.toNat ≤ (running 5 3).params.nmax ∧
      (running 5 3).bcnt.toNat ≤ (running 5 3).params.bmax := by decide

theorem witness_EndToEndRoundTrip :
    let s := running 4 0
    let u : State := { running 5 1 with blk := made.blk }
    s.params.wf = true ∧ s.busy = true ∧ s.op = 0x04 ∧ supported s.params s.len.toNat = true ∧
      blockCount s.len.toNat % 5 ≠ 0 ∧ u.busy = true ∧ u.op = 0x05 ∧ u.params = s.params ∧
      u.ctxl.toNat < s.params.nctx ∧ u.clen = made.clen ∧ u.bcnt = made.bcnt ∧ u.ckey = made.ckey ∧
      u.blk = made.blk ∧ u.epoch = made.epoch := by decide +kernel

theorem witness_MakeIsDeterministic :
    let s := running 4 0
    let u : State := { running 4 0 with txt := [(0, 0x48), (1, 0x45), (2, 0x4C), (3, 0x4C), (4, 0x4F), (5, 0xFF)] }
    s.params.wf = true ∧ u.params.wf = true ∧ s.busy = true ∧ s.op = 0x04 ∧ u.busy = true ∧ u.op = 0x04 ∧
      supported s.params s.len.toNat = true ∧ supported u.params u.len.toNat = true ∧ s.len = u.len ∧
      s.seed = u.seed ∧ (∀ p < s.len.toNat - 1, readByte .txt p s = readByte .txt p u) ∧
      blockCount s.len.toNat % 5 ≠ 0 := by decide

theorem witness_ChunkWordsAreLittleEndianAndPadded : 0 < 4 ∧ 3 < 4 := by decide

theorem witness_ClrerrClearsErr : (failed 3).busy = false ∧ (running 4 0).busy = true := by decide

theorem witness_RefusalRecordsTheFirstCode : ready.err = 0 ∧ (failed 7).err ≠ 0 := by decide

theorem witness_ErrIsStickyAndFirstWins :
    (failed 5).err ≠ 0 ∧ (after (step (given (commandWrite 0xF) (failed 5)))).isSome = true ∧
      (given (commandWrite 0xF) (failed 5)).inputs = commandWrite 0x0000000F :: [] ∧
      (after (step (given .reset (failed 5)))).isSome = true ∧ (failed 5).busy = false ∧
      (given (commandWrite 4) (failed 5)).inputs = commandWrite 4 :: [] ∧ (4 : Word) ≠ 0x0000000F := by decide

theorem witness_RegisterReadsReturnTheRegister :
    ready.busy = false ∧ (given (readAt 0x000) ready).inputs = .bus ⟨0x000, 4, none⟩ :: [] ∧
      (given (readAt 0x05C) ready).inputs = .bus ⟨0x05C, 4, none⟩ :: [] := by decide

theorem witness_StatusReadsExactly :
    (given (readAt 0x004) (running 1 0)).inputs = .bus ⟨0x004, 4, none⟩ :: [] ∧
      (given (readAt 0x004) ready).inputs = .bus ⟨0x004, 4, none⟩ :: [] ∧ (given (readAt 0x004) ready).inv = true ∧
      ready.params.nctx ≤ 4 ∧ ready.busy = false ∧
      (given (writeAt 0x004 5) ready).inputs = .bus ⟨0x004, 4, some 5⟩ :: [] := by decide

theorem witness_RegisterWritesStore :
    ready.busy = false ∧ ([0x008, 0x010, 0x014, 0x018, 0x01C, 0x030, 0x034] : List (BitVec 17)).all (fun off =>
      decide ((given (writeAt off 5) ready).inputs = .bus ⟨off, 4, some 5⟩ :: [])) = true := by decide

theorem witness_RefusedBusAccesses :
    let p := ready.params
    ready.busy = false ∧ (running 1 0).busy = true ∧
      (given (readAt 0x00C) ready).inputs = .bus ⟨0x00C, 4, none⟩ :: [] ∧
      (∀ off ∈ [0x00C, 0x048, 0x04C, 0x060, 0xFFC, 0x1100, 0x1FFC, 0x2100, 0xFFFC, 0x10100, 0x14000, 0x1FFFC],
        off = 0x00C ∨ off = 0x048 ∨ off = 0x04C ∨ (0x060 ≤ off ∧ off < 0x1000) ∨
          (0x1000 + p.nmax ≤ off ∧ off < 0x2000) ∨ (0x2000 + 8 * p.bmax ≤ off ∧ off < 0x10000) ∨
          (0x10000 ≤ off ∧ (p.nctx ≤ (off - 0x10000) / 0x1000 ∨ p.nmax ≤ (off - 0x10000) % 0x1000))) ∧
      (∀ off ∈ [0x004, 0x020, 0x02C, 0x038, 0x044, 0x050, 0x05C, 0x2000, 0x20FC, 0x10000, 0x130FC],
        off = 0x004 ∨ (0x020 ≤ off ∧ off < 0x030) ∨ (0x038 ≤ off ∧ off < 0x048) ∨
          (0x050 ≤ off ∧ off < 0x060) ∨ (0x2000 ≤ off ∧ off < 0x10000) ∨ 0x10000 ≤ off) ∧
      (∀ x ∈ [(2, 0x000), (4, 0x001), (4, 0x011), (1, 0x1FFFF), (8, 0x010)], x.1 ≠ 4 ∨ x.2 % 4 ≠ 0) := by decide

theorem witness_AccessWhileBusy :
    (running 4 0).busy = true ∧ (given (readAt 0x004) (running 4 0)).inputs = .bus ⟨0x004, 4, none⟩ :: [] ∧
      (given (readAt 0x000) (running 4 0)).inputs = .bus ⟨0x000, 4, none⟩ :: [] ∧
      (given (readAt 0x1FFFC) (running 4 0)).inputs = .bus ⟨0x1FFFC, 4, none⟩ :: [] ∧
      (given (writeAt 0x000 0xF) (running 4 0)).inputs = .bus ⟨0x000, 4, some 0xF⟩ :: [] := by decide

theorem witness_TxtWindowIsLittleEndian :
    ready.params.wf = true ∧ ready.busy = false ∧ 252 % 4 = 0 ∧ 252 < ready.params.nmax ∧
      (given (writeAt 0x10FC 5) ready).inputs = .bus ⟨BitVec.ofNat 17 (0x1000 + 252), 4, some 5⟩ :: [] ∧
      (given (readAt 0x10FC) ready).inputs = .bus ⟨BitVec.ofNat 17 (0x1000 + 252), 4, none⟩ :: [] := by decide

theorem witness_OutWindowIsLittleEndian :
    ready.params.wf = true ∧ ready.busy = false ∧ (3 : Fin 16).val < ready.params.nctx ∧ 252 % 4 = 0 ∧
      252 < ready.params.nmax ∧
      (given (readAt 0x130FC) ready).inputs = .bus ⟨BitVec.ofNat 17 (0x10000 + 0x1000 * 3 + 252), 4, none⟩ :: [] := by
  decide

theorem witness_BlkWindowIsLowWordFirst :
    ready.params.wf = true ∧ ready.busy = false ∧ 31 < ready.params.bmax ∧
      (given (readAt 0x20F8) ready).inputs = .bus ⟨BitVec.ofNat 17 (0x2000 + 8 * 31), 4, none⟩ :: [] ∧
      (given (readAt 0x20FC) ready).inputs = .bus ⟨BitVec.ofNat 17 (0x2000 + 8 * 31 + 4), 4, none⟩ :: [] := by decide

theorem witness_FullChunkWordIsTheBusWord :
    ready.params.wf = true ∧ ready.busy = false ∧ 0 % 4 = 0 ∧ 0 + 4 ≤ 6 - 1 ∧ 6 ≤ ready.params.nmax ∧
      (given (readAt 0x1000) ready).inputs = .bus ⟨BitVec.ofNat 17 (0x1000 + 0), 4, none⟩ :: [] := by decide

theorem witness_OffsetsLocateThePlaces :
    small.wf = true ∧ 0x1FFFF < 0x20000 ∧ locate small 0x13004 = some (.out 3 4) ∧
      (Loc.out 3 4).offset = 0x13004 := by decide

theorem witness_ResetGivesTheListedValues : (given .reset (running 4 0)).inputs = .reset :: [] := by decide

theorem witness_InvariantHoldsAtReset : Params.wf ⟨4096, 16, false, kh⟩ = true := by decide

theorem witness_EveryStepKeepsTheInvariant :
    ready.inv = true ∧ (after (step (given (commandWrite 0x305) ready))).isSome = true ∧
      (running 5 3).inv = true ∧ (after (step (running 5 3))).isSome = true := by decide +kernel

theorem witness_NoStepStops : ready.inv = true ∧ (running 4 0).inv = true := by decide

theorem witness_EachRegisterHasItsWriters :
    (after (step (given (writeAt 0x008 9) ready))).map (·.len) = some 9 ∧
      (after (step (running 1 0))).map (·.key) = some kh ∧
      (after (step (given (commandWrite 0x305) ready))).map (fun t => (t.op, t.ctxl)) = some (5, 3) ∧
      (after (step (given (writeAt 0x020 5) ready))).map (·.err) = some 7 := by decide

theorem witness_ValidFlagsAreSetByCompletionAndClearedByReset :
    (after (step { running 1 0 with kvalid := false })).map (·.kvalid) = some true ∧
      (after (step (given .reset ready))).map (·.kvalid) = some false := by decide

theorem witness_BusyAndDoneChangeTogether :
    (after (step (given (commandWrite 1) ready))).map (·.busy) = some true ∧
      (after (step (running 1 0))).map (·.busy) = some false := by decide

theorem witness_EveryCommandTerminates :
    (given (readAt 0x004) (running 4 0)).inv = true ∧ (given (readAt 0x004) (running 4 0)).busy = true := by decide

theorem witness_WaitEndsWhenTheCommandCompletes :
    let s : State := { running 4 0 with inputs := wait 2 ++ [readAt 0x044] }
    s.inv = true ∧ s.busy = true ∧ s.inputs = wait 2 ++ [readAt 0x044] := by decide

theorem witness_EngineScheduleRefinesCompletion :
    (running 4 0).busy = true ∧ inProgress (running 4 0) = some .make ∧
      (after (exec .make (running 4 0))).isSome = true := by decide +kernel

theorem witness_EngineRoundsFollowTheCipher : 0 < 63 ∧ 63 < 64 ∧ (running 2 0).scratch.rnd = 0 := by decide

theorem witness_IdleEngineRetainsAllState :
    (failed 5).busy = false ∧ (failed 5).inputs = [] ∧ (given .engine ready).busy = false ∧
      (given .engine ready).inputs = .engine :: [] := by decide

end Sys2Proof.Tests
end

/-! PROOF. `MemWrite` followed by `MemRead` (00_scope.md R16): the frame of a write of several bytes, then the value
read back. -/

namespace Sys2Proof.Machine

/-! ### What a write of several bytes leaves unchanged -/

/-- A write touches no byte of another memory (10_state.md R38). -/
theorem readByte_memWrite_space (sp sp' : Space) (a n v x : Nat) (s : State) (h : sp' ≠ sp) :
    readByte sp' x (memWrite sp a n v s) = readByte sp' x s :=
  readByte_congr sp' x s _ (bank_memWrite_space sp sp' a n v s h) (memWrite_epoch sp a n v s)

/-- A write touches no byte below its address and none from its end on. -/
theorem readByte_memWrite_outside (sp : Space) (a n v x : Nat) (s : State) (h : x < a ∨ a + n ≤ x) :
    readByte sp x (memWrite sp a n v s) = readByte sp x s := by
  induction n generalizing a v s with
  | zero => rfl
  | succ n ih =>
    calc readByte sp x (memWrite sp (a + 1) n (v / 256) (writeByte sp a (BitVec.ofNat 8 v) s))
        = readByte sp x (writeByte sp a (BitVec.ofNat 8 v) s) := ih _ _ _ (by omega)
      _ = readByte sp x s := readByte_writeByte_addr _ _ _ _ _ (by omega)

/-! ### What it stores -/

/-- The lowest byte of a write stands at its address: the later bytes go to higher addresses. -/
theorem readByte_memWrite_first (sp : Space) (a n v : Nat) (s : State) :
    readByte sp a (memWrite sp a (n + 1) v s) = BitVec.ofNat 8 v := by
  rw [memWrite, readByte_memWrite_outside _ _ _ _ _ _ (.inl (Nat.lt_succ_self a)), readByte_writeByte_same]

/-- Reading back what was written: the lowest byte first, then the rest of the number one address higher. -/
theorem memRead_memWrite_same (sp : Space) (a n v : Nat) (s : State) :
    memRead sp a n (memWrite sp a n v s) = v % 256 ^ n := by
  induction n generalizing a v s with
  | zero => simp [memRead, Nat.mod_one]
  | succ n ih =>
    have rest : memRead sp (a + 1) n (memWrite sp a (n + 1) v s) = v / 256 % 256 ^ n := ih _ _ _
    calc memRead sp a (n + 1) (memWrite sp a (n + 1) v s)
        = v % 256 + 256 * (v / 256 % 256 ^ n) := by
          rw [memRead, readByte_memWrite_first, rest, BitVec.toNat_ofNat]
      _ = v % 256 ^ (n + 1) := by rw [pow_succ' 256 n, Nat.mod_mul]

/-! ### The obligation -/

/-- Settles O42, from the value read back and the two frames of a write. -/
theorem memWriteThenMemRead : Obligations.MemWriteThenMemRead := by
  unfold Obligations.MemWriteThenMemRead
  intro sp a n v s
  exact ⟨memRead_memWrite_same sp a n v s, fun x => readByte_memWrite_outside sp a n v x s,
    fun sp' x => readByte_memWrite_space sp sp' a n v x s⟩

end Sys2Proof.Machine

/-! PROOF. The address map, the decoded command and the completion of a command, each said once: what an offset that
is found stands for, what `latch` puts into OP and CTXL, what a completion writes. -/

namespace Sys2Proof.Machine

/-! ### The address map (10_state.md R41, 20_memory.md R70) -/

/-- Every row of the register table stands at its own register's offset. -/
theorem offset_of_mem_registerMap : ∀ e ∈ registerMap, e.2.offset = e.1 := by decide

/-- The table has one row per offset, so looking a row's offset up finds that row. -/
theorem lookup_of_mem_registerMap :
    ∀ e ∈ registerMap, e.1 < 0x1000 ∧ e.1 % 4 = 0 ∧ registerMap.lookup e.1 = some e.2 := by decide

/-- What the address map finds at an offset has that offset. -/
theorem offset_of_locate {p : Params} {off : Nat} {l : Loc} (hoff : off < 0x20000)
    (h : locate p off = some l) : l.offset = off := by
  unfold locate at h
  split at h
  · obtain ⟨front, back, hmap, -⟩ := List.lookup_eq_some_iff.1 h
    exact offset_of_mem_registerMap (off, l) (hmap ▸ by simp)
  split at h
  · split at h
    · obtain rfl := Option.some.inj h
      simp only [Loc.offset]; omega
    · cases h
  split at h
  · split at h
    · obtain rfl := Option.some.inj h
      simp only [Loc.offset]; omega
    · cases h
  · simp only at h
    split at h
    · obtain rfl := Option.some.inj h
      simp only [Loc.offset, Fin.val_ofNat]; omega
    · cases h

/-- A TXT word that is found lies below NMAX. -/
theorem txt_lt_of_locate {p : Params} {off q : Nat} (h : locate p off = some (.txt q)) : q < p.nmax := by
  unfold locate at h
  split at h
  · obtain ⟨front, back, hmap, -⟩ := List.lookup_eq_some_iff.1 h
    have hmem : (off, Loc.txt q) ∈ registerMap := hmap ▸ by simp
    simp [registerMap] at hmem
  split at h
  · split at h
    · next hq => rwa [← Loc.txt.inj (Option.some.inj h)]
    · cases h
  split at h
  · split at h <;> cases h
  · simp only at h
    split at h <;> cases h

/-- An aligned 32-bit transaction at a row of the register table reaches that register. -/
theorem target_of_mem_registerMap {e : Nat × Loc} (he : e ∈ registerMap) (p : Params) (d : Option Word) :
    target p ⟨BitVec.ofNat 17 e.1, 4, d⟩ = some e.2 := by
  obtain ⟨hlt, haligned, hlookup⟩ := lookup_of_mem_registerMap e he
  have haddr : (BitVec.ofNat 17 e.1).toNat = e.1 := by
    rw [BitVec.toNat_ofNat]; omega
  simp [target, haddr, haligned, locate, hlt, hlookup]

/-- A transaction that reaches a place stands at the place's offset. -/
theorem offset_of_target {p : Params} {a : Access} {l : Loc} (h : target p a = some l) :
    l.offset = a.addr.toNat := by
  unfold target at h
  split at h
  · exact offset_of_locate a.addr.isLt h
  · cases h

/-! ### The command a word decodes to (30_encoding.md R92 to R94) -/

/-- A decoded context number is a CTX field, below 16. -/
theorem context_lt_of_decode {w : Word} {c : Nat} (h : decode w = .ok (.decrypt c)) : c < 16 := by
  unfold decode at h
  split at h
  · cases h
  split at h
  · cases h; exact (ctxField w).isLt
  · repeat' split at h
    all_goals cases h

/-- `0x0000000F` is the only word of CLRERR. -/
theorem decode_eq_clrerr_iff (w : Word) : decode w = .ok .clrerr ↔ w = 0x0000000F := by
  constructor
  · intro h
    have fields : rsvField w = 0 ∧ ctxField w = 0 ∧ opcField w = 0x0F := by
      unfold decode at h
      repeat' split at h
      all_goals simp_all
    obtain ⟨hrsv, hctx, hopc⟩ := fields
    have hrsv : w.toNat / 2 ^ 12 % 2 ^ 20 = 0 := by
      simpa [rsvField, Nat.shiftRight_eq_div_pow] using congrArg BitVec.toNat hrsv
    have hctx : w.toNat / 2 ^ 8 % 2 ^ 4 = 0 := by
      simpa [ctxField, Nat.shiftRight_eq_div_pow] using congrArg BitVec.toNat hctx
    have hopc : w.toNat % 2 ^ 8 = 15 := by
      simpa [opcField] using congrArg BitVec.toNat hopc
    exact BitVec.eq_of_toNat_eq (by change w.toNat = 15; omega)
  · rintro rfl
    decide

/-- The latched fields of a decoded command name that command again (43_system.md R190 step 5, R192). -/
theorem inProgress_latch {w : Word} {i : Instr} (h : decode w = .ok i) (hne : i ≠ .clrerr) (s : State) :
    inProgress (latch i s) = some i := by
  cases i with
  | kderive => exact inProgress_kderive _ Laws.EncodingFields.kderive.2.1
  | encblk => exact inProgress_encblk _ Laws.EncodingFields.encblk.2.1
  | decblk => exact inProgress_decblk _ Laws.EncodingFields.decblk.2.1
  | make => exact inProgress_make _ Laws.EncodingFields.make.2.1
  | decrypt c =>
    obtain ⟨-, hopc, hctx⟩ := Laws.EncodingFields.decrypt c
    rw [inProgress_decrypt _ hopc, latch_ctxl, hctx, BitVec.toNat_ofNat,
      Nat.mod_eq_of_lt (context_lt_of_decode h)]
  | clrerr => exact absurd rfl hne

/-! ### What a completion writes -/

/-- The pseudocode of the command in progress, by the value of OP: the registers it writes, every other field as it
was. -/
theorem bodyOf_cases (s : State) {i : Instr} (h : inProgress s = some i) :
    (s.op = 0x01 ∧ bodyOf i s = { s with key := keyDerive s.seed, kvalid := true }) ∨
    ((s.op = 0x02 ∨ s.op = 0x03) ∧ ∃ r, bodyOf i s = { s with res := r, rvalid := true }) ∨
    (s.op = 0x04 ∧ ∃ b, bodyOf i s =
      { s with
        ckey := keyDerive s.seed, clen := s.len, bcnt := BitVec.ofNat 32 (blockCount s.len.toNat)
        cvalid := true, blk := b }) ∨
    (s.op = 0x05 ∧ ∃ o, (∀ d : Fin 16, d.val ≠ s.ctxl.toNat → o[d.val] = s.out[d.val]) ∧
      bodyOf i s = { s with ovalid := s.ovalid ||| (1#16 <<< s.ctxl.toNat), out := o }) := by
  rcases inProgress_cases s i h with ⟨hop, rfl⟩ | ⟨hop, rfl⟩ | ⟨hop, rfl⟩ | ⟨hop, rfl⟩ | ⟨hop, rfl⟩
  · exact .inl ⟨hop, rfl⟩
  · exact .inr (.inl ⟨.inl hop, _, rfl⟩)
  · exact .inr (.inl ⟨.inr hop, _, rfl⟩)
  · exact .inr (.inr (.inl ⟨hop, _, buildContainer_eq s⟩))
  · refine .inr (.inr (.inr ⟨hop, _, fun d hd => ?_, decryptContainer_eq _ s⟩))
    refine decryptContainer_out_other _ s d ?_
    rwa [Nat.mod_eq_of_lt s.ctxl.isLt]

end Sys2Proof.Machine

/-! PROOF. Every step keeps the invariant (10_state.md R26 to R34, 20_memory.md R60, 43_system.md R192): the memories
stay canonical and inside their sizes under every write, then the seven effects of a step one by one. -/

namespace Sys2Proof.Machine

/-! ### The memories stay inside their sizes -/

/-- How many bytes a memory has (20_memory.md R60): none in a bank that does not exist. -/
def spaceSize (p : Params) : Space → Nat
  | .txt => p.nmax
  | .blk => 8 * p.bmax
  | .out c => if c.val < p.nctx then p.nmax else 0

/-- `memoriesOk`, memory by memory. -/
theorem memoriesOk_iff (s : State) :
    memoriesOk s = true ↔
      ∀ sp, Memory.wf (bank sp s) = true ∧ Memory.within (spaceSize s.params sp) (bank sp s) = true := by
  constructor
  · intro h sp
    simp only [memoriesOk, Bool.and_eq_true, List.all_eq_true, List.mem_finRange, forall_const] at h
    obtain ⟨⟨⟨⟨htxt, htxtIn⟩, hblk⟩, hblkIn⟩, hout⟩ := h
    cases sp with
    | txt => exact ⟨htxt, htxtIn⟩
    | blk => exact ⟨hblk, hblkIn⟩
    | out c => exact hout c
  · intro h
    simp only [memoriesOk, Bool.and_eq_true, List.all_eq_true, List.mem_finRange, forall_const]
    exact ⟨⟨⟨h .txt, (h .blk).1⟩, (h .blk).2⟩, fun c => h (.out c)⟩

/-- A write inside its memory. -/
theorem memoriesOk_memWrite {sp : Space} {a n : Nat} (v : Nat) {s : State}
    (hfit : a + n ≤ spaceSize s.params sp) (h : memoriesOk s = true) :
    memoriesOk (memWrite sp a n v s) = true := by
  rw [memoriesOk_iff] at h ⊢
  intro sp'
  rw [memWrite_params]
  by_cases hsp : sp' = sp
  · subst hsp
    exact ⟨bank_memWrite_wf _ _ _ _ _ (h sp').1, bank_memWrite_within _ _ _ _ _ _ hfit (h sp').2⟩
  · rw [bank_memWrite_space _ _ _ _ _ _ hsp]
    exact h sp'

/-- What every trip of a counted loop keeps, the loop keeps. -/
theorem forUpTo_keeps {α : Type} {P : α → Prop} {f : Nat → α → α} {n : Nat} {a : α} (h0 : P a)
    (hstep : ∀ i < n, ∀ b, P b → P (f i b)) : P (forUpTo f n a) := by
  induction n with
  | zero => exact h0
  | succ n ih => exact hstep n (Nat.lt_succ_self n) _ (ih fun i hi => hstep i (Nat.lt_succ_of_lt hi))

/-- The memories are in order under the parameters `p`: what the loops of MAKE and DECRYPT keep. -/
def MemoriesOkFor (p : Params) (s : State) : Prop := s.params = p ∧ memoriesOk s = true

theorem memoriesOkFor_memWrite {p : Params} {sp : Space} {a n : Nat} (v : Nat) {s : State}
    (hfit : a + n ≤ spaceSize p sp) (h : MemoriesOkFor p s) : MemoriesOkFor p (memWrite sp a n v s) := by
  obtain ⟨rfl, hm⟩ := h
  exact ⟨memWrite_params _ _ _ _ _, memoriesOk_memWrite v hfit hm⟩

/-- A trip of MAKE stores one entry below the block count (42_container.md R154). -/
theorem memoriesOkFor_makeStep {p : Params} {n bc i : Nat} (k : Key) {s : State} (hbc : bc ≤ p.bmax)
    (hi : i < bc) (h : MemoriesOkFor p s) : MemoriesOkFor p (makeStep n bc k i s) := by
  have hidx : scramble i bc < bc := Nat.mod_lt _ (Nat.zero_lt_of_lt hi)
  exact memoriesOkFor_memWrite _ (by simp only [spaceSize]; omega) h

/-- A trip of DECRYPT writes text positions below `n - 1` alone (20_memory.md R66, 42_container.md R155). -/
theorem memoriesOkFor_decryptStep {p : Params} {c : Fin 16} {n : Nat} (bc : Nat) (k : Key) (i : Nat) {s : State}
    (hn : n ≤ spaceSize p (.out c)) (h : MemoriesOkFor p s) :
    MemoriesOkFor p (decryptStep (.out c) n bc k i s) := by
  refine forUpTo_keeps h fun j _ t ht => ?_
  unfold outByte
  split
  · exact memoriesOkFor_memWrite _ (by omega) ht
  · exact ht

/-- The pseudocode of MAKE stays inside BLK. -/
theorem memoriesOk_buildContainer {s : State} (hfits : makeFits s = true) (h : memoriesOk s = true) :
    memoriesOk (buildContainer s) = true := by
  simp only [makeFits, Bool.and_eq_true, decide_eq_true_eq] at hfits
  have loop : MemoriesOkFor s.params (forUpTo (makeStep s.len.toNat (blockCount s.len.toNat)
      (openContainer s).ckey) (blockCount s.len.toNat) (openContainer s)) :=
    forUpTo_keeps ⟨rfl, h⟩ fun i hi t ht => memoriesOkFor_makeStep _ hfits.2 hi ht
  exact loop.2

/-- The pseudocode of DECRYPT stays inside the buffer of its context. -/
theorem memoriesOk_decryptContainer {c : Nat} {s : State} (hctx : s.params.nctx ≤ 16)
    (hfits : decryptFits c s = true) (h : memoriesOk s = true) :
    memoriesOk (decryptContainer c s) = true := by
  simp only [decryptFits, Bool.and_eq_true, decide_eq_true_eq] at hfits
  obtain ⟨⟨⟨hpos, hlen⟩, -⟩, hc⟩ := hfits
  have hsize : spaceSize s.params (outSpace c) = s.params.nmax := by
    have hval : (Fin.ofNat 16 c).val = c := Nat.mod_eq_of_lt (by omega)
    exact if_pos (hval.symm ▸ hc)
  have loop : MemoriesOkFor s.params
      (forUpTo (decryptStep (outSpace c) s.clen.toNat s.bcnt.toNat s.ckey) s.bcnt.toNat s) :=
    forUpTo_keeps ⟨rfl, h⟩ fun i _ t ht => memoriesOkFor_decryptStep _ _ i (hsize.ge.trans' hlen) ht
  exact (memoriesOkFor_memWrite 0 (by omega) loop).2

/-- Whatever completes without a fault stays inside its memories. -/
theorem memoriesOk_bodyOf {i : Instr} {s : State} (hctx : s.params.nctx ≤ 16) (hfits : fitsOf i s = true)
    (h : memoriesOk s = true) : memoriesOk (bodyOf i s) = true := by
  cases i with
  | kderive => exact h
  | encblk => exact h
  | decblk => exact h
  | make => exact memoriesOk_buildContainer hfits h
  | decrypt c => exact memoriesOk_decryptContainer hctx hfits h
  | clrerr => exact h

/-! ### The invariant by name -/

/-- `State.inv` clause by clause. -/
structure State.Invariant (s : State) : Prop where
  params : s.params.wf = true
  memories : memoriesOk s = true
  err : s.err.toNat ≤ 7
  ovalid : s.ovalid.toNat < 2 ^ s.params.nctx
  notDone : s.busy = true → s.done = false
  command : s.busy = true → commandOk s = true
  container : s.cvalid = true → containerOk s = true

theorem State.inv_iff (s : State) : s.inv = true ↔ s.Invariant := by
  simp only [State.inv, Bool.and_eq_true, Bool.or_eq_true, Bool.not_eq_true', Bool.and_eq_false_imp,
    ← Bool.not_eq_true s.busy, ← Bool.not_eq_true s.cvalid, ← imp_iff_not_or, decide_eq_true_eq]
  constructor
  · rintro ⟨⟨⟨⟨⟨⟨hp, hm⟩, he⟩, ho⟩, hd⟩, hcmd⟩, hcont⟩
    exact ⟨hp, hm, he, ho, hd, hcmd, hcont⟩
  · rintro ⟨hp, hm, he, ho, hd, hcmd, hcont⟩
    exact ⟨⟨⟨⟨⟨⟨hp, hm⟩, he⟩, ho⟩, hd⟩, hcmd⟩, hcont⟩

/-- Legal parameters: NMAX is a multiple of 8 and at most sixteen contexts exist (00_scope.md R9, R10). -/
theorem Params.bounds_of_wf {p : Params} (h : p.wf = true) : p.nmax % 8 = 0 ∧ p.nmax ≤ 4096 ∧ p.nctx ≤ 16 := by
  simp only [Params.wf, Bool.and_eq_true, decide_eq_true_eq] at h
  omega

/-! ### The effects of a step -/

theorem err_zero_le : (0 : BitVec 4).toNat ≤ 7 := by decide

/-- The reset state of every machine with legal parameters. -/
theorem invariant_resetFor {p : Params} (hp : p.wf = true) (epoch draw : Nat) :
    (State.resetFor p epoch draw).Invariant where
  params := hp
  memories := by
    rw [memoriesOk_iff]
    intro sp
    cases sp <;> simp [bank, State.resetFor, Memory.wf, Memory.within]
  err := err_zero_le
  ovalid := Nat.two_pow_pos _
  notDone := fun h => by cases h
  command := fun h => by cases h
  container := fun h => by cases h

/-- BUSY ends: with the other clauses kept, the command's conditions are no longer asked for. -/
theorem invariant_finish {s : State} (hp : s.params.wf = true) (hm : memoriesOk s = true) (he : s.err.toNat ≤ 7)
    (ho : s.ovalid.toNat < 2 ^ s.params.nctx) (hc : s.cvalid = true → containerOk s = true) :
    (finish s).Invariant where
  params := hp
  memories := hm
  err := he
  ovalid := ho
  notDone := fun h => by cases h
  command := fun h => by cases h
  container := hc

/-- Setting the bit of an existing context keeps OVALID below `2 ^ NCTX`. -/
theorem ovalid_lt_of_set {o : BitVec 16} {c n : Nat} (hc : c < n) (h : o.toNat < 2 ^ n) :
    (o ||| (1#16 <<< c)).toNat < 2 ^ n := by
  rw [BitVec.toNat_or]
  refine Nat.or_lt_two_pow h ?_
  calc (1#16 <<< c).toNat ≤ 2 ^ c := by
        rw [BitVec.toNat_shiftLeft, Nat.shiftLeft_eq]
        simpa using Nat.mod_le (2 ^ c) 65536
    _ < 2 ^ n := Nat.pow_lt_pow_right (by decide) hc

/-- The container a MAKE leaves is whole (10_state.md R26): its length was supported, and the block count of a
supported length fits in BCNT. -/
theorem blockCount_fits {p : Params} {n : Nat} (hp : p.wf = true) (h : supported p n = true) :
    (BitVec.ofNat 32 (blockCount n)).toNat = blockCount n := by
  have hmax := (Params.bounds_of_wf hp).2.1
  simp only [supported, Bool.and_eq_true, decide_eq_true_eq] at h
  rw [BitVec.toNat_ofNat]
  unfold blockCount
  omega

/-- A completion. -/
theorem invariant_completion {s : State} {i : Instr} (h : s.Invariant) (hb : s.busy = true)
    (hi : inProgress s = some i) (hfits : fitsOf i s = true) : (finish (bodyOf i s)).Invariant := by
  obtain ⟨-, -, hctx⟩ := Params.bounds_of_wf h.params
  have hadmitted : stillAdmitted i s = true := by
    simpa [commandOk, hi] using h.command hb
  have hm := memoriesOk_bodyOf hctx hfits h.memories
  rcases inProgress_cases s i hi with ⟨-, rfl⟩ | ⟨-, rfl⟩ | ⟨-, rfl⟩ | ⟨-, rfl⟩ | ⟨-, rfl⟩
  · exact invariant_finish h.params hm h.err h.ovalid h.container
  · exact invariant_finish h.params hm h.err h.ovalid h.container
  · exact invariant_finish h.params hm h.err h.ovalid h.container
  · have hbody : bodyOf .make s = _ := buildContainer_eq s
    rw [hbody] at hm ⊢
    refine invariant_finish h.params hm h.err h.ovalid fun _ => ?_
    exact (Bool.and_eq_true _ _).mpr ⟨hadmitted, decide_eq_true (blockCount_fits h.params hadmitted)⟩
  · have hbody : bodyOf (.decrypt s.ctxl.toNat) s = _ := decryptContainer_eq s.ctxl.toNat s
    have hc : s.ctxl.toNat < s.params.nctx := by
      simp only [stillAdmitted, Bool.and_eq_true, decide_eq_true_eq] at hadmitted
      exact hadmitted.1
    rw [hbody] at hm ⊢
    exact invariant_finish h.params hm h.err (ovalid_lt_of_set hc h.ovalid) h.container

/-- The inputs, the reply, the count of draws and a legal ERR are no part of the other clauses. -/
theorem invariant_err {s : State} (h : s.Invariant) (rest : List Input) {e : BitVec 4} (he : e.toNat ≤ 7)
    (r : Option Word) (d : Nat) :
    State.Invariant { advance rest s with err := e, reply := r, draws := d } where
  params := h.params
  memories := h.memories
  err := he
  ovalid := h.ovalid
  notDone := h.notDone
  command := h.command
  container := h.container

/-- A check that finds nothing is the condition its completion rests on (43_system.md R192). -/
theorem stillAdmitted_of_check {i : Instr} {s : State} (hne : i ≠ .clrerr) (h : checkOf i s = none) :
    stillAdmitted i s = true := by
  cases i with
  | kderive => rfl
  | encblk => simpa [stillAdmitted, checkOf, keyCheck] using h
  | decblk => simpa [stillAdmitted, checkOf, keyCheck] using h
  | make => simpa [stillAdmitted, checkOf, lengthCheck] using h
  | decrypt c =>
    simp only [checkOf, containerCheck] at h
    split at h
    · cases h
    · next hc => simpa [stillAdmitted, Nat.lt_of_not_ge hc] using h
  | clrerr => exact absurd rfl hne

/-- An acceptance. -/
theorem invariant_latch {s : State} {w : Word} {i : Instr} (h : s.Invariant) (hd : decode w = .ok i)
    (hne : i ≠ .clrerr) (hcheck : checkOf i s = none) : (latch i s).Invariant where
  params := h.params
  memories := h.memories
  err := h.err
  ovalid := h.ovalid
  notDone := fun _ => rfl
  command := fun _ => by
    have hadmitted : stillAdmitted i (latch i s) = stillAdmitted i s := by cases i <;> rfl
    simp only [commandOk, inProgress_latch hd hne, hadmitted, stillAdmitted_of_check hne hcheck]
  container := h.container

/-- A store of the host, the engine idle: the registers are free, a TXT word ends at or below NMAX. -/
theorem invariant_store {s t : State} {l : Loc} {w : Word} {ad : BitVec 17} (h : s.Invariant)
    (hb : s.busy = false) (haligned : ad.toNat % 4 = 0) (hl : locate s.params ad.toNat = some l)
    (hst : StoredAt l w s t) : t.Invariant := by
  have notBusy : s.busy ≠ true := by simp [hb]
  rcases hst with ⟨-, rfl⟩ | ⟨j, -, rfl⟩ | ⟨-, rfl⟩ | ⟨-, rfl⟩ | ⟨p, rfl, htxt, ht⟩
  · exact ⟨h.params, h.memories, h.err, h.ovalid, h.notDone, fun hb => absurd hb notBusy, h.container⟩
  · exact ⟨h.params, h.memories, h.err, h.ovalid, h.notDone, h.command, h.container⟩
  · exact ⟨h.params, h.memories, h.err, h.ovalid, h.notDone, h.command, h.container⟩
  · exact ⟨h.params, h.memories, h.err, h.ovalid, h.notDone, h.command, h.container⟩
  · have hoff : 0x1000 + p = ad.toNat := offset_of_locate ad.isLt hl
    have hmul := (Params.bounds_of_wf h.params).1
    have hp := txt_lt_of_locate hl
    have hm : memoriesOk t = true := by
      rw [htxt]
      exact memoriesOk_memWrite _ (by simp only [spaceSize]; omega) h.memories
    rw [ht] at hm ⊢
    exact ⟨h.params, hm, h.err, h.ovalid, h.notDone, h.command, h.container⟩

/-! ### The obligations -/

/-- Settles O45. -/
theorem invariantHoldsAtReset : Obligations.InvariantHoldsAtReset := by
  unfold Obligations.InvariantHoldsAtReset
  have resetFor : ∀ (p : Params) (epoch draw : Nat), p.wf = true → (State.resetFor p epoch draw).inv = true :=
    fun p epoch draw hp => (State.inv_iff _).2 (invariant_resetFor hp epoch draw)
  exact ⟨resetFor Params.default 0 0 (by decide), resetFor⟩

/-- Settles O46, one effect of a step after the other. -/
theorem everyStepKeepsTheInvariant : Obligations.EveryStepKeepsTheInvariant := by
  unfold Obligations.EveryStepKeepsTheInvariant
  intro s t hinv hstep
  rw [State.inv_iff] at hinv ⊢
  have advanced (rest : List Input) : (advance rest s).Invariant := invariant_err hinv rest hinv.err none s.draws
  rcases step_next_cases s t hstep with
    ⟨rest, -, rfl⟩ | ⟨rest, -, -, rfl⟩ | ⟨rest, i, -, hb, hi, hfits, rfl⟩ | ⟨a, rest, -, e, r, d, rfl, he⟩ |
      ⟨w, rest, -, -, -, rfl⟩ | ⟨w, rest, i, -, -, -, hd, hne, hcheck, rfl⟩ |
      ⟨ad, w, rest, l, -, hb, haligned, hl, hst⟩
  · exact invariant_err (invariant_resetFor hinv.params (s.epoch + 1) s.draws) rest err_zero_le none (s.draws + 1)
  · exact advanced rest
  · exact invariant_completion (advanced rest) hb hi hfits
  · refine invariant_err hinv rest ?_ r d
    rcases he with rfl | ⟨-, hle⟩
    · exact hinv.err
    · exact hle
  · exact invariant_err hinv rest err_zero_le none s.draws
  · exact invariant_latch (advanced rest) hd hne hcheck
  · exact invariant_store (advanced rest) hb haligned hl hst

end Sys2Proof.Machine

/-! PROOF. The registers on the bus (10_state.md R27, R39 to R41): one rule for an idle read, one for an idle write, one
for each access while BUSY = 1, then the bits of STATUS. -/

namespace Sys2Proof.Machine

/-! ### One bus transaction -/

theorem loadLoc_advance (l : Loc) (rest : List Input) (s : State) : loadLoc l (advance rest s) = loadLoc l s := by
  cases l <;> rfl

/-- An idle read of a place returns its value and changes nothing. -/
theorem step_read_idle {s : State} {a : Access} {rest : List Input} {l : Loc} (hi : s.inputs = .bus a :: rest)
    (hd : a.data = none) (hb : s.busy = false) (hl : target s.params a = some l) :
    step s = .next { advance rest s with reply := some (loadLoc l s) } := by
  rw [step_bus s a rest hi, ← loadLoc_advance l rest s]
  simp [busTurn, hd, busRead, hb, hl, respond]

/-- An idle write to a place other than CMD is the store to it. -/
theorem step_write_idle {s : State} {a : Access} {rest : List Input} {l : Loc} {w : Word}
    (hi : s.inputs = .bus a :: rest) (hd : a.data = some w) (hb : s.busy = false)
    (hl : target s.params a = some l) (hne : l ≠ .cmd) :
    step s = .next (storeLoc l w (advance rest s)) := by
  rw [step_bus s a rest hi]
  cases l with
  | cmd => exact absurd rfl hne
  | _ => simp [busTurn, busWrite, hd, hb, hl]

/-- A read of STATUS while BUSY = 1. -/
theorem step_readStatus_busy {s : State} {a : Access} {rest : List Input} (hi : s.inputs = .bus a :: rest)
    (hd : a.data = none) (hb : s.busy = true) (hl : target s.params a = some .status) :
    step s = .next { advance rest s with reply := some (statusWord s) } := by
  rw [step_bus s a rest hi]
  simp [busTurn, hd, busRead, hb, hl, respond, statusWord]

/-- A read of CMD while BUSY = 1. -/
theorem step_readCmd_busy {s : State} {a : Access} {rest : List Input} (hi : s.inputs = .bus a :: rest)
    (hd : a.data = none) (hb : s.busy = true) (hl : target s.params a = some .cmd) :
    step s = .next { advance rest s with reply := some 0 } := by
  rw [step_bus s a rest hi]
  simp [busTurn, hd, busRead, hb, hl, respond]

/-- Any other read while BUSY = 1 draws a free value. -/
theorem step_readOther_busy {s : State} {a : Access} {rest : List Input} (hi : s.inputs = .bus a :: rest)
    (hd : a.data = none) (hb : s.busy = true) (hstatus : target s.params a ≠ some .status)
    (hcmd : target s.params a ≠ some .cmd) :
    step s = .next { advance rest s with reply := some (Config.busyRead s.draws), draws := s.draws + 1 } := by
  rw [step_bus s a rest hi]
  unfold busTurn busRead
  rw [hd]
  simp only [advance_busy, advance_params]
  split <;> simp_all [respondFree]

/-- A write while BUSY = 1 is refused with ERR_BUSY. -/
theorem step_write_busy {s : State} {a : Access} {rest : List Input} (hi : s.inputs = .bus a :: rest)
    (hd : a.data ≠ none) (hb : s.busy = true) :
    step s = .next { advance rest s with err := if s.err = 0 then 2 else s.err } := by
  obtain ⟨w, hw⟩ := Option.ne_none_iff_exists'.1 hd
  rw [step_bus s a rest hi]
  simp only [busTurn, hw, busWrite, advance_busy, hb, if_true, refuse_eq]
  rfl

/-- The STATUS register on the bus, its offset written as the rules write it. -/
theorem target_status (p : Params) (d : Option Word) : target p ⟨0x004, 4, d⟩ = some .status :=
  target_of_mem_registerMap (by decide : (0x004, Loc.status) ∈ registerMap) p d

/-! ### The STATUS word, field by field (10_state.md R27) -/

theorem flagAt_getLsbD (b : Bool) {k : Nat} (hk : k < 32) (j : Nat) :
    (flagAt b k).getLsbD j = (decide (j = k) && b) := by
  rw [flagAt, BitVec.getLsbD_shiftLeft, BitVec.getLsbD_setWidth, BitVec.getLsbD_ofBool]
  by_cases h : j = k
  · subst h; simp [hk]
  · simp [h]; omega

/-- Which field a bit of STATUS comes from: a bit that no field covers is 0. -/
theorem statusWord_getLsbD (s : State) {j : Nat} (hj : j < 32) :
    (statusWord s).getLsbD j =
      (decide (j = 0) && s.busy || decide (j = 1) && s.done || decide (j = 2) && s.kvalid ||
        decide (j = 3) && s.cvalid || decide (j = 4) && s.rvalid ||
        !decide (j < 8) && s.err.getLsbD (j - 8) || !decide (j < 16) && s.ovalid.getLsbD (j - 16)) := by
  have h8 : j - 8 < 32 := by omega
  have h16 : j - 16 < 32 := by omega
  simp (disch := decide) only [statusWord, BitVec.getLsbD_or, BitVec.getLsbD_shiftLeft, BitVec.getLsbD_setWidth,
    flagAt_getLsbD]
  simp [hj, h8, h16]

theorem statusWord_flags (s : State) :
    (statusWord s).getLsbD 0 = s.busy ∧ (statusWord s).getLsbD 1 = s.done ∧ (statusWord s).getLsbD 2 = s.kvalid ∧
      (statusWord s).getLsbD 3 = s.cvalid ∧ (statusWord s).getLsbD 4 = s.rvalid := by
  refine ⟨?_, ?_, ?_, ?_, ?_⟩ <;> rw [statusWord_getLsbD s (by decide)] <;> simp

/-- A STATUS bit at or above 16 is an OVALID bit. -/
theorem statusWord_ovalid (s : State) {c : Nat} (hc : c < 16) :
    (statusWord s).getLsbD (16 + c) = s.ovalid.getLsbD c := by
  rw [statusWord_getLsbD s (by omega)]
  have herr : s.err.getLsbD (16 + c - 8) = false := BitVec.getLsbD_of_ge _ _ (by omega)
  simp [herr]
  omega

theorem statusWord_err (s : State) : (statusWord s).extractLsb' 8 4 = s.err := by
  refine BitVec.eq_of_getLsbD_eq fun i hi => ?_
  rw [BitVec.getLsbD_extractLsb', statusWord_getLsbD s (by omega)]
  have h16 : 8 + i < 16 := by omega
  simp [hi, h16]
  omega

/-- Bits 7:5 and 15:12 lie in no field. -/
theorem statusWord_reserved (s : State) :
    (statusWord s).extractLsb' 5 3 = 0#3 ∧ (statusWord s).extractLsb' 12 4 = 0#4 := by
  constructor
  · refine BitVec.eq_of_getLsbD_eq fun i hi => ?_
    rw [BitVec.getLsbD_extractLsb', statusWord_getLsbD s (by omega)]
    simp
    omega
  · refine BitVec.eq_of_getLsbD_eq fun i hi => ?_
    have herr : s.err.getLsbD (12 + i - 8) = false := BitVec.getLsbD_of_ge _ _ (by omega)
    rw [BitVec.getLsbD_extractLsb', statusWord_getLsbD s (by omega), herr]
    simp
    omega

/-! ### The obligations -/

/-- Settles O32: the table of the statement is the register table with each register's value. -/
theorem registerReadsReturnTheRegister : Obligations.RegisterReadsReturnTheRegister := by
  unfold Obligations.RegisterReadsReturnTheRegister
  intro s off v rest hmem hb hi
  obtain ⟨e, he, hrow⟩ := List.mem_map.1
    (show (off, v) ∈ registerMap.map fun e => (BitVec.ofNat 17 e.1, loadLoc e.2 s) from hmem)
  obtain ⟨rfl, rfl⟩ := Prod.mk.inj hrow
  exact step_read_idle hi rfl hb (target_of_mem_registerMap he s.params none)

/-- Settles O33. -/
theorem statusReadsExactly : Obligations.StatusReadsExactly := by
  unfold Obligations.StatusReadsExactly
  refine ⟨fun s rest hi => ⟨statusWord s, ?_, ?_⟩, fun s w rest hb hi => ?_⟩
  · cases hb : s.busy with
    | false => exact step_read_idle hi rfl hb (target_status _ _)
    | true => exact step_readStatus_busy hi rfl hb (target_status _ _)
  · obtain ⟨hbusy, hdone, hkvalid, hcvalid, hrvalid⟩ := statusWord_flags s
    obtain ⟨low, high⟩ := statusWord_reserved s
    refine ⟨hbusy, hdone, hkvalid, hcvalid, hrvalid, low, statusWord_err s, high,
      fun c hc => statusWord_ovalid s hc, fun hinv c hc hc16 => ?_⟩
    have hov := ((State.inv_iff s).1 hinv).ovalid
    rw [statusWord_ovalid s hc16]
    exact Nat.testBit_lt_two_pow (hov.trans_le (Nat.pow_le_pow_right (by decide) hc))
  · rw [step_write_idle hi rfl hb (target_status _ _) (by decide), storeLoc, refuse_eq]
    rfl

/-- Replacing one word of a key. -/
theorem key_set_eq (k : Key) (w : Word) :
    k.set 0 w = #v[w, k[1], k[2], k[3]] ∧ k.set 1 w = #v[k[0], w, k[2], k[3]] ∧
      k.set 2 w = #v[k[0], k[1], w, k[3]] ∧ k.set 3 w = #v[k[0], k[1], k[2], w] := by
  refine ⟨?_, ?_, ?_, ?_⟩ <;> (ext i hi; interval_cases i) <;> simp

/-- Settles O34, register by register. -/
theorem registerWritesStore : Obligations.RegisterWritesStore := by
  unfold Obligations.RegisterWritesStore
  intro s w off rest hb hi
  have store (e : Nat × Loc) (he : e ∈ registerMap) (hne : e.2 ≠ .cmd) (hoff : off = BitVec.ofNat 17 e.1) :
      step s = .next (storeLoc e.2 w (advance rest s)) := by
    subst hoff
    exact step_write_idle hi rfl hb (target_of_mem_registerMap he s.params _) hne
  obtain ⟨seed0, seed1, seed2, seed3⟩ := key_set_eq s.seed w
  refine ⟨?_, ?_, ?_, ?_, ?_, ?_, ?_⟩
  · exact store (0x008, .len) (by decide) (by decide)
  · exact seed0 ▸ store (0x010, .seed 0) (by decide) (by decide)
  · exact seed1 ▸ store (0x014, .seed 1) (by decide) (by decide)
  · exact seed2 ▸ store (0x018, .seed 2) (by decide) (by decide)
  · exact seed3 ▸ store (0x01C, .seed 3) (by decide) (by decide)
  · exact store (0x030, .v0) (by decide) (by decide)
  · exact store (0x034, .v1) (by decide) (by decide)

/-- Settles O36. -/
theorem accessWhileBusy : Obligations.AccessWhileBusy := by
  unfold Obligations.AccessWhileBusy
  intro s a rest hb hi
  refine ⟨fun hd h4 haddr => ?_, fun hd h4 haddr => ?_, fun hd hstatus hcmd => ?_,
    fun hd => step_write_busy hi hd hb⟩
  · obtain ⟨ad, n, data⟩ := a
    obtain rfl : ad = 0x004 := haddr
    obtain rfl : n = 4 := h4
    exact step_readStatus_busy hi hd hb (target_status _ _)
  · exact step_readCmd_busy hi hd hb ((target_cmd _ _).2 ⟨h4, haddr⟩)
  · refine ⟨_, step_readOther_busy hi hd hb (fun ht => hstatus ?_) (fun ht => hcmd ?_)⟩
    · exact BitVec.eq_of_toNat_eq (offset_of_target ht).symm
    · exact BitVec.eq_of_toNat_eq (offset_of_target ht).symm

theorem statusWord_resetFor (p : Params) (epoch draw : Nat) : statusWord (State.resetFor p epoch draw) = 0 := by
  simp [statusWord, flagAt, State.resetFor]

/-- Settles O43. -/
theorem resetGivesTheListedValues : Obligations.ResetGivesTheListedValues := by
  unfold Obligations.ResetGivesTheListedValues
  intro s rest hi
  exact ⟨_, step_reset s rest hi, statusWord_resetFor s.params (s.epoch + 1) s.draws,
    rfl, rfl, rfl, rfl, rfl, rfl, rfl, rfl, rfl, rfl, rfl, rfl, rfl⟩

/-- Settles O44: with no input left it is the engine's turn, and the engine is idle. -/
theorem startStateIsTheResetState : Obligations.StartStateIsTheResetState := by
  unfold Obligations.StartStateIsTheResetState
  have idle : step State.reset = .next (advance [] State.reset) := step_none State.reset rfl
  exact ⟨rfl, rfl, rfl, rfl, statusWord_resetFor Params.default 0 0, rfl, rfl, rfl, idle⟩

end Sys2Proof.Machine

/-! PROOF. Who writes what (10_state.md R20, R28 to R34): the next input and the command in OP name the writer of each
step, then the seven effects of a step one by one. -/

namespace Sys2Proof.Machine

/-! ### Which agent moves next -/

/-- On the engine's turn, BUSY = 1, the completion is that of the command in OP and of no other. -/
theorem completes_iff_of_engineNext {s : State} {rest : List Input} (he : EngineNext s rest) (hb : s.busy = true)
    (opc : BitVec 8) : s.completes opc ↔ s.op = opc := by
  have hnext : s.inputs = [] ∨ s.inputs.head? = some .engine := by
    rcases he with ⟨h, -⟩ | h <;> simp [h]
  simp [State.completes, hb, hnext]

theorem not_resets_of_engineNext {s : State} {rest : List Input} (he : EngineNext s rest) : ¬ s.resets := by
  rcases he with ⟨h, -⟩ | h <;> simp [State.resets, h]

theorem resets_of_inputs {s : State} {rest : List Input} (hi : s.inputs = .reset :: rest) : s.resets := by
  simp [State.resets, hi]

theorem not_resets_of_bus {s : State} {a : Access} {rest : List Input} (hi : s.inputs = .bus a :: rest) :
    ¬ s.resets := by
  simp [State.resets, hi]

theorem not_completes_of_bus {s : State} {a : Access} {rest : List Input} (hi : s.inputs = .bus a :: rest)
    (opc : BitVec 8) : ¬ s.completes opc := by
  simp [State.completes, hi]

theorem not_completes_of_idle {s : State} (hb : s.busy = false) (opc : BitVec 8) : ¬ s.completes opc := by
  simp [State.completes, hb]

/-! ### What a store of the host leaves -/

/-- A store writes the place it goes to among LEN, SEED, V0, V1 and TXT, and no other field. -/
theorem storedAt_writes {l : Loc} {w : Word} {s t : State} (h : StoredAt l w s t) :
    t = { s with len := t.len, seed := t.seed, v0 := t.v0, v1 := t.v1, txt := t.txt } ∧
    (t.len ≠ s.len → l = .len) ∧
    (∀ j : Fin 4, t.seed[j.val] ≠ s.seed[j.val] → l = .seed j) ∧
    (t.v0 ≠ s.v0 → l = .v0) ∧
    (t.v1 ≠ s.v1 → l = .v1) ∧
    ∀ p, readByte .txt p t ≠ readByte .txt p s → ∃ q, l = .txt q ∧ q ≤ p ∧ p < q + 4 := by
  rcases h with ⟨rfl, rfl⟩ | ⟨j, rfl, rfl⟩ | ⟨rfl, rfl⟩ | ⟨rfl, rfl⟩ | ⟨q, rfl, htxt, ht⟩
  · exact ⟨rfl, by simp, by simp, by simp, by simp, fun p hp => absurd rfl hp⟩
  · refine ⟨rfl, by simp, fun k hk => ?_, by simp, by simp, fun p hp => absurd rfl hp⟩
    by_contra hne
    exact hk (Vector.getElem_set_ne j.isLt k.isLt fun hjk => hne (by rw [Fin.ext hjk]))
  · exact ⟨rfl, by simp, by simp, by simp, by simp, fun p hp => absurd rfl hp⟩
  · exact ⟨rfl, by simp, by simp, by simp, by simp, fun p hp => absurd rfl hp⟩
  · have hout : ∀ p, p < q ∨ q + 4 ≤ p → readByte .txt p t = readByte .txt p s := fun p hp => by
      rw [htxt, readByte_memWrite_outside _ _ _ _ _ _ hp]
    refine ⟨?_, ?_, ?_, ?_, ?_, fun p hp => ⟨q, rfl, ?_⟩⟩
    · rw [ht]
    · simp [htxt]
    · simp [htxt]
    · simp [htxt]
    · simp [htxt]
    · by_contra hne
      exact hp (hout p (by omega))

/-! ### ERR -/

/-- An idle CMD write is the write sequence of the word (43_system.md R190). -/
theorem step_commandWrite_idle {s : State} {w : Word} {rest : List Input} (hi : s.inputs = commandWrite w :: rest)
    (hb : s.busy = false) : step s = writeCommand w (advance rest s) := by
  have hcmd : target s.params ⟨0, 4, some w⟩ = some .cmd := (target_cmd _ _).2 ⟨rfl, rfl⟩
  rw [step_bus s _ rest hi]
  simp only [busTurn, busWrite, advance_busy, advance_params, hb, hcmd]
  rfl

/-- Settles O31, the four clauses of 10_state.md R33 in turn. -/
theorem errIsStickyAndFirstWins : Obligations.ErrIsStickyAndFirstWins := by
  unfold Obligations.ErrIsStickyAndFirstWins
  refine ⟨?_, ?_, ?_, ?_⟩
  · intro s t hstep hr
    obtain ⟨rest, hi⟩ := List.head?_eq_some_iff.1 hr
    rw [step_reset s rest hi] at hstep
    exact Host.Outcome.next.inj hstep ▸ rfl
  · intro s rest hb hi
    have hd : decode 0x0000000F = .ok .clrerr := (decode_eq_clrerr_iff _).2 rfl
    rw [step_commandWrite_idle hi hb, writeCommand, hd]
    exact exec_clrerr_idle (advance rest s) hb
  · intro s t hstep herr
    rcases step_next_cases s t hstep with
      ⟨rest, hi, rfl⟩ | ⟨rest, -, -, rfl⟩ | ⟨rest, i, -, -, hp, -, rfl⟩ | ⟨a, rest, -, e, r, d, rfl, he⟩ |
        ⟨w, rest, hi, hb, hd, rfl⟩ | ⟨w, rest, i, -, -, h0, -, -, -, rfl⟩ |
        ⟨ad, w, rest, l, -, -, -, -, hst⟩
    · exact .inr ⟨rfl, .inl (resets_of_inputs hi)⟩
    · exact .inl rfl
    · rcases bodyOf_cases (advance rest s) hp with ⟨-, h⟩ | ⟨-, r, h⟩ | ⟨-, b, h⟩ | ⟨-, o, -, h⟩ <;>
        exact .inl (by rw [h]; rfl)
    · exact .inl (he.resolve_right fun h => herr h.1)
    · rw [(decode_eq_clrerr_iff w).1 hd] at hi
      exact .inr ⟨rfl, .inr ⟨hb, by simp [hi]⟩⟩
    · exact absurd h0 herr
    · obtain ⟨ht, -⟩ := storedAt_writes hst
      exact .inl (by rw [ht]; rfl)
  · intro s w rest herr hb hi hw
    rw [step_commandWrite_idle hi hb]
    rcases writeCommand_cases w (advance rest s) hb with ⟨hd, -⟩ | ⟨i, -, -, h⟩ | ⟨e, -, h⟩
    · exact absurd ((decode_eq_clrerr_iff w).1 hd) hw
    · have hacc : accept i (checkOf i) (advance rest s) = advance rest s := if_pos herr
      rw [h, hacc]
    · have href : refuse .opcode (advance rest s) = advance rest s := if_neg herr
      rw [h, href]

/-! ### BUSY, DONE and the valid flags -/

/-- Settles O50, one effect of a step after the other. -/
theorem busyAndDoneChangeTogether : Obligations.BusyAndDoneChangeTogether := by
  unfold Obligations.BusyAndDoneChangeTogether
  intro s t hstep
  rcases step_next_cases s t hstep with
    ⟨rest, hi, rfl⟩ | ⟨rest, -, -, rfl⟩ | ⟨rest, i, he, hb, -, -, rfl⟩ | ⟨a, rest, -, e, r, d, rfl, -⟩ |
      ⟨w, rest, -, -, -, rfl⟩ | ⟨w, rest, i, hi, hb, -, hd, hne, -, rfl⟩ |
      ⟨ad, w, rest, l, -, -, -, -, hst⟩
  · exact .inl ⟨resets_of_inputs hi, rfl, rfl⟩
  · exact .inr (.inl ⟨rfl, rfl⟩)
  · obtain ⟨-, -, hturn⟩ := (completes_iff_of_engineNext he hb s.op).2 rfl
    exact .inr (.inr (.inr ⟨hb, rfl, rfl, hturn⟩))
  · exact .inr (.inl ⟨rfl, rfl⟩)
  · exact .inr (.inl ⟨rfl, rfl⟩)
  · exact .inr (.inr (.inl ⟨hb, rfl, rfl, w, i, by simp [hi], hd, hne⟩))
  · obtain ⟨ht, -⟩ := storedAt_writes hst
    exact .inr (.inl (by rw [ht]; exact ⟨rfl, rfl⟩))

/-- The bits of OVALID after the completion of DECRYPT. -/
theorem ovalid_set_getLsbD (o : BitVec 16) (k c : Nat) (hc : c < 16) :
    (o ||| (1#16 <<< k)).getLsbD c = true ↔ o.getLsbD c = true ∨ k = c := by
  rw [BitVec.getLsbD_or, BitVec.getLsbD_shiftLeft, Bool.or_eq_true]
  refine or_congr_right ?_
  simp [hc]
  omega

/-- Settles O49, one effect of a step after the other. -/
theorem validFlagsAreSetByCompletionAndClearedByReset :
    Obligations.ValidFlagsAreSetByCompletionAndClearedByReset := by
  unfold Obligations.ValidFlagsAreSetByCompletionAndClearedByReset
  intro s t hstep
  rcases step_next_cases s t hstep with
    ⟨rest, hi, rfl⟩ | ⟨rest, he, hb, rfl⟩ | ⟨rest, i, he, hb, hp, -, rfl⟩ | ⟨a, rest, hi, e, r, d, rfl, -⟩ |
      ⟨w, rest, hi, -, -, rfl⟩ | ⟨w, rest, i, hi, -, -, -, -, -, rfl⟩ |
      ⟨ad, w, rest, l, hi, -, -, -, hst⟩
  · simp [resets_of_inputs hi, applyReset, State.resetFor]
  · simp [not_resets_of_engineNext he, not_completes_of_idle hb]
  · have hnr := not_resets_of_engineNext he
    have hc := completes_iff_of_engineNext he hb
    rcases bodyOf_cases (advance rest s) hp with ⟨hop, h⟩ | ⟨hop, r, h⟩ | ⟨hop, b, h⟩ | ⟨hop, o, -, h⟩
    · have hop : s.op = 0x01 := hop
      simp [h, hc, hop, hnr]
    · have hop : s.op = 0x02 ∨ s.op = 0x03 := hop
      rcases hop with hop | hop <;> simp [h, hc, hop, hnr]
    · have hop : s.op = 0x04 := hop
      simp [h, hc, hop, hnr]
    · have hop : s.op = 0x05 := hop
      simpa [h, hc, hop, hnr] using ovalid_set_getLsbD s.ovalid s.ctxl.toNat
  · simp [not_resets_of_bus hi, not_completes_of_bus hi]
  · simp [not_resets_of_bus hi, not_completes_of_bus hi]
  · simp [not_resets_of_bus hi, not_completes_of_bus hi]
  · obtain ⟨ht, -⟩ := storedAt_writes hst
    rw [ht]
    simp [not_resets_of_bus hi, not_completes_of_bus hi]

/-! ### Every register -/

/-- A text byte depends on TXT and on the number of resets alone. -/
theorem readByte_txt (p : Nat) (s : State) :
    readByte .txt p s = (Memory.lookup s.txt p).getD (unwritten s.epoch .txt p) := rfl

/-- Settles O48, one effect of a step after the other; a store is traced back to its place by the offset. -/
theorem eachRegisterHasItsWriters : Obligations.EachRegisterHasItsWriters := by
  unfold Obligations.EachRegisterHasItsWriters
  intro s t hstep
  rcases step_next_cases s t hstep with
    ⟨rest, hi, rfl⟩ | ⟨rest, -, -, rfl⟩ | ⟨rest, i, he, hb, hp, -, rfl⟩ | ⟨a, rest, hi, e, r, d, rfl, -⟩ |
      ⟨w, rest, hi, -, -, rfl⟩ | ⟨w, rest, i, hi, hb, -, hd, hne, -, rfl⟩ |
      ⟨ad, w, rest, l, hi, hb, haligned, hl, hst⟩
  · simp [resets_of_inputs hi, applyReset, State.resetFor]
  · simp [readByte_txt]
  · have hc := completes_iff_of_engineNext he hb
    rcases bodyOf_cases (advance rest s) hp with ⟨hop, h⟩ | ⟨hop, r, h⟩ | ⟨hop, b, h⟩ | ⟨hop, o, ho, h⟩
    · have hop : s.op = 0x01 := hop
      simp [h, hc, hop, readByte_txt]
    · have hop : s.op = 0x02 ∨ s.op = 0x03 := hop
      rcases hop with hop | hop <;> simp [h, hc, hop, readByte_txt]
    · have hop : s.op = 0x04 := hop
      simp [h, hc, hop, readByte_txt]
    · have hop : s.op = 0x05 := hop
      have hout : ∀ c : Fin 16, ¬o[c.val] = s.out[c.val] → s.resets ∨ c.val = s.ctxl.toNat :=
        fun c hne => .inr (not_imp_comm.1 (ho c) hne)
      simpa [h, hc, hop, readByte_txt] using hout
  · simp [hi, readByte_txt]
  · simp [hi, commandWrite, readByte_txt]
  · have hissues : s.issues := ⟨hb, w, i, by simp [hi], hd, hne⟩
    simp [hissues, readByte_txt]
  · have hwrites : s.hostWrites l.offset := ⟨hb, ad, w, by simp [hi], (offset_of_locate ad.isLt hl).symm⟩
    obtain ⟨ht, hlen, hseed, hv0, hv1, htxt⟩ := storedAt_writes hst
    have hword : ∀ p, readByte .txt p t ≠ readByte .txt p s →
        ∃ q, s.hostWrites (0x1000 + q) ∧ q < s.params.nmax ∧ q % 4 = 0 ∧ q ≤ p ∧ p < q + 4 := by
      intro p hp
      obtain ⟨q, rfl, hqp, hpq⟩ := htxt p hp
      have hoff : 0x1000 + q = ad.toNat := offset_of_locate ad.isLt hl
      exact ⟨q, hwrites, txt_lt_of_locate hl, by omega, hqp, hpq⟩
    have writer {m : Loc} (h : l = m) : s.resets ∨ s.hostWrites m.offset := .inr (h ▸ hwrites)
    refine ⟨?_, ?_, ?_, ?_, ?_, fun h => writer (hlen h), fun j h => writer (hseed j h), fun h => writer (hv0 h),
      fun h => writer (hv1 h), fun p h => .inr (hword p h), ?_⟩
    all_goals
      rw [ht]
      simp

end Sys2Proof.Machine

/-! PROOF. Bytes, words and blocks (20_memory.md R64 to R66): the byte of a word as a quotient, the bytes that `MemRead`
gathers and `MemWrite` spreads, then the packing of a block, of a chunk word and of an output chunk. -/

namespace Sys2Proof.Machine

/-! ### The bytes of a word -/

/-- Byte `k` of a word is the number's `k`th digit to base 256. -/
theorem byte_eq_ofNat (w : Word) (k : Nat) : (w >>> (8 * k)).setWidth 8 = BitVec.ofNat 8 (w.toNat / 256 ^ k) := by
  refine BitVec.eq_of_toNat_eq ?_
  rw [BitVec.toNat_setWidth, BitVec.toNat_ushiftRight, BitVec.toNat_ofNat, Nat.shiftRight_eq_div_pow, pow_mul]
  rfl

theorem wordByte_eq (w : Word) (k : Nat) : wordByte w k = (w >>> (8 * (k % 4))).setWidth 8 :=
  (BitVec.setWidth_eq_extractLsb' (by decide)).symm

/-! ### The bytes of a number in memory -/

/-- A read of one byte is that byte. -/
@[simp] theorem memRead_one (sp : Space) (a : Nat) (s : State) : memRead sp a 1 s = (readByte sp a s).toNat := rfl

/-- A write of one byte is `writeByte`. -/
@[simp] theorem memWrite_one (sp : Space) (a v : Nat) (s : State) :
    memWrite sp a 1 v s = writeByte sp a (BitVec.ofNat 8 v) s := rfl

/-- A read of `m + n` bytes: the first `m` bytes are the low part. -/
theorem memRead_add (sp : Space) (a m n : Nat) (s : State) :
    memRead sp a (m + n) s = memRead sp a m s + 256 ^ m * memRead sp (a + m) n s := by
  induction m generalizing a with
  | zero => simp [memRead]
  | succ m ih =>
    rw [Nat.succ_add, memRead, memRead, ih, Nat.add_right_comm a 1 m, pow_succ']
    ring_nf

/-- The `k`th digit of a number read from memory is the byte at the `k`th address. -/
theorem memRead_digit (sp : Space) {a n k : Nat} (s : State) (hk : k < n) :
    BitVec.ofNat 8 (memRead sp a n s / 256 ^ k) = readByte sp (a + k) s := by
  refine BitVec.eq_of_toNat_eq ?_
  have hlow : memRead sp a k s < 256 ^ k := memRead_lt sp a k s
  obtain ⟨m, rfl⟩ : ∃ m, n = k + (m + 1) := ⟨n - k - 1, by omega⟩
  rw [BitVec.toNat_ofNat, memRead_add, Nat.add_mul_div_left _ _ (by positivity), Nat.div_eq_of_lt hlow, memRead]
  have hbyte := (readByte sp (a + k) s).isLt
  omega

/-- A write puts the `k`th digit of its number at the `k`th address. -/
theorem readByte_memWrite_digit (sp : Space) {a n k : Nat} (v : Nat) (s : State) (hk : k < n) :
    readByte sp (a + k) (memWrite sp a n v s) = BitVec.ofNat 8 (v / 256 ^ k) := by
  rw [← memRead_digit sp _ hk, memRead_memWrite_same]
  refine BitVec.eq_of_toNat_eq ?_
  obtain ⟨m, rfl⟩ : ∃ m, n = k + (m + 1) := ⟨n - k - 1, by omega⟩
  rw [BitVec.toNat_ofNat, BitVec.toNat_ofNat, pow_add, Nat.mod_mul_right_div_self, pow_succ']
  exact Nat.mod_mul_right_mod _ _ _

/-! ### Blocks -/

/-- Settles O14. -/
theorem blockPackingIsHighLow : Obligations.BlockPackingIsHighLow := by
  unfold Obligations.BlockPackingIsHighLow
  refine ⟨fun v0 v1 => ⟨?_, BitVec.extractLsb'_append_eq_left, BitVec.extractLsb'_append_eq_right⟩, fun b => ?_⟩
  · rw [packBlock, BitVec.toNat_append, ← Nat.shiftLeft_add_eq_or_of_lt v1.isLt, Nat.shiftLeft_eq]
  · calc blockHi b ++ blockLo b
        = b.extractLsb' 0 64 := BitVec.extractLsb'_append_extractLsb'_eq_extractLsb' rfl
      _ = b := BitVec.extractLsb'_eq_self

/-! ### Chunk words -/

theorem txtByte_eq (n p : Nat) (s : State) :
    txtByte n p s = (if p < n - 1 then readByte .txt p s else 0#8).toNat := by
  unfold txtByte
  split <;> rfl

theorem txtByte_lt (n p : Nat) (s : State) : txtByte n p s < 256 := by
  rw [txtByte_eq]
  exact BitVec.isLt _

/-- The digits of a chunk word are the bytes it was packed from. -/
theorem pack32LE_digit (n off : Nat) {k : Nat} (s : State) (hk : k < 4) :
    (pack32LE n off s).toNat / 256 ^ k % 256 = txtByte n (off + k) s := by
  have hzero : txtByte n (off + 0) s = txtByte n off s := rfl
  have h0 := txtByte_lt n off s
  have h1 := txtByte_lt n (off + 1) s
  have h2 := txtByte_lt n (off + 2) s
  have h3 := txtByte_lt n (off + 3) s
  rw [pack32LE, BitVec.toNat_ofNat]
  interval_cases k <;> omega

/-- Settles O27. -/
theorem chunkWordsAreLittleEndianAndPadded : Obligations.ChunkWordsAreLittleEndianAndPadded := by
  unfold Obligations.ChunkWordsAreLittleEndianAndPadded
  intro n off k s hk
  refine BitVec.eq_of_toNat_eq ?_
  rw [byte_eq_ofNat, BitVec.toNat_ofNat, ← txtByte_eq]
  exact pack32LE_digit n off s hk

/-! ### Output chunks -/

/-- One trip of `OutChunk` sets the byte at `off + k` if it lies below `n - 1`. -/
theorem readByte_outByte (sp : Space) (n off : Nat) (v0 v1 : Word) (k p : Nat) (s : State) :
    readByte sp p (outByte sp n off v0 v1 k s) =
      if p = off + k ∧ p < n - 1 then wordByte (if k < 4 then v0 else v1) k else readByte sp p s := by
  unfold outByte
  by_cases hp : p = off + k
  · subst hp
    split <;> simp [*]
  · simp only [hp, false_and, if_false]
    split
    · exact readByte_writeByte_addr _ _ _ _ _ hp
    · rfl

/-- The first `m` trips of `OutChunk` have set the bytes from `off` to `off + m` that lie below `n - 1`. -/
theorem readByte_outByte_loop (sp : Space) (n off : Nat) (v0 v1 : Word) (m p : Nat) (s : State) :
    readByte sp p (forUpTo (outByte sp n off v0 v1) m s) =
      if off ≤ p ∧ p < off + m ∧ p < n - 1 then wordByte (if p - off < 4 then v0 else v1) (p - off)
      else readByte sp p s := by
  induction m with
  | zero => rw [if_neg (by omega)]; rfl
  | succ m ih =>
    rw [forUpTo, readByte_outByte, ih]
    by_cases hp : p = off + m
    · subst hp
      simp
    · have hrange : (off ≤ p ∧ p < off + m ∧ p < n - 1) ↔ (off ≤ p ∧ p < off + (m + 1) ∧ p < n - 1) := by omega
      simp only [hp, false_and, if_false, hrange]

/-- Settles O28. -/
theorem outChunkUnpacksLittleEndian : Obligations.OutChunkUnpacksLittleEndian := by
  unfold Obligations.OutChunkUnpacksLittleEndian
  intro c n off v0 v1 s
  refine ⟨fun p => ?_, fun sp a hsp => ?_⟩
  · rw [outChunk, readByte_outByte_loop]
    split
    · next hp =>
      rw [wordByte_eq]
      split
      · next hlow => rw [Nat.mod_eq_of_lt hlow]
      · have hhigh : (p - off) % 4 = p - off - 4 := by omega
        rw [hhigh]
    · rfl
  · refine readByte_congr sp a s _ (bank_outChunk_other c sp n off v0 v1 s hsp) ?_
    rw [outChunk_eq]

end Sys2Proof.Machine

/-! PROOF. The address map (20_memory.md R70, 10_state.md R41), region by region: every place that exists is found at
its offset, and nothing else is. -/

namespace Sys2Proof.Machine

/-! ### The map, region by region -/

theorem locate_register (p : Params) {off : Nat} (h : off < 0x1000) : locate p off = registerMap.lookup off :=
  if_pos h

theorem locate_txt (p : Params) {q : Nat} (h : q < 0x1000) :
    locate p (0x1000 + q) = if q < p.nmax then some (.txt q) else none := by
  simp (disch := omega) only [locate, if_neg, if_pos, Nat.add_sub_cancel_left]

theorem locate_blk (p : Params) {q : Nat} (h : q < 0xE000) :
    locate p (0x2000 + q) = if q < 8 * p.bmax then some (.blk q) else none := by
  simp (disch := omega) only [locate, if_neg, if_pos, Nat.add_sub_cancel_left]

theorem locate_out (p : Params) (c : Nat) {q : Nat} (h : q < 0x1000) :
    locate p (0x10000 + 0x1000 * c + q) =
      if c < p.nctx ∧ q < p.nmax then some (.out (Fin.ofNat 16 c) q) else none := by
  have hbank : (0x10000 + 0x1000 * c + q - 0x10000) / 0x1000 = c := by omega
  have hbyte : (0x10000 + 0x1000 * c + q - 0x10000) % 0x1000 = q := by omega
  simp (disch := omega) only [locate, if_neg, hbank, hbyte]

/-- Every offset lies in the register page, the TXT window, the BLK window or an OUT window. -/
theorem offset_regions (off : Nat) :
    off < 0x1000 ∨ (∃ q < 0x1000, off = 0x1000 + q) ∨ (∃ q < 0xE000, off = 0x2000 + q) ∨
      ∃ c, ∃ q < 0x1000, off = 0x10000 + 0x1000 * c + q := by
  by_cases hreg : off < 0x1000
  · exact .inl hreg
  by_cases htxt : off < 0x2000
  · exact .inr (.inl ⟨off - 0x1000, by omega, by omega⟩)
  by_cases hblk : off < 0x10000
  · exact .inr (.inr (.inl ⟨off - 0x2000, by omega, by omega⟩))
  · exact .inr (.inr (.inr ⟨(off - 0x10000) / 0x1000, (off - 0x10000) % 0x1000, by omega, by omega⟩))

/-! ### Registers -/

theorem mem_registerMap_of_lookup {off : Nat} {l : Loc} (h : registerMap.lookup off = some l) :
    (off, l) ∈ registerMap := by
  obtain ⟨front, back, hmap, -⟩ := List.lookup_eq_some_iff.1 h
  exact hmap ▸ by simp

/-- The register table lists every register at its offset. -/
theorem mem_registerMap_offset {l : Loc} (h : l.offset < 0x1000) : (l.offset, l) ∈ registerMap := by
  cases l with
  | seed j | key j | ckey j => revert j; decide
  | txt q | blk q | out c q => simp only [Loc.offset] at h; omega
  | _ => decide

theorem locate_register_offset (p : Params) {l : Loc} (h : l.offset < 0x1000) : locate p l.offset = some l := by
  obtain ⟨-, -, hlookup⟩ := lookup_of_mem_registerMap _ (mem_registerMap_offset h)
  exact (locate_register p h).trans hlookup

/-! ### The places that exist -/

/-- A place exists: every register, and a byte of a window inside its memory (20_memory.md R60, R70). -/
def Loc.present (p : Params) : Loc → Prop
  | .txt q => q < p.nmax
  | .blk q => q < 8 * p.bmax
  | .out c q => c.val < p.nctx ∧ q < p.nmax
  | _ => True

/-- No window byte stands in the register table. -/
theorem present_of_mem_registerMap (p : Params) : ∀ e ∈ registerMap, e.2.present p := by
  simp [registerMap, Loc.present]

theorem present_of_locate {p : Params} {off : Nat} {l : Loc} (h : locate p off = some l) : l.present p := by
  obtain hoff | ⟨q, hq, rfl⟩ | ⟨q, hq, rfl⟩ | ⟨c, q, hq, rfl⟩ := offset_regions off
  · rw [locate_register p hoff] at h
    exact present_of_mem_registerMap p _ (mem_registerMap_of_lookup h)
  · rw [locate_txt p hq, Option.ite_none_right_eq_some] at h
    obtain ⟨hbyte, ⟨⟩⟩ := h
    exact hbyte
  · rw [locate_blk p hq, Option.ite_none_right_eq_some] at h
    obtain ⟨hbyte, ⟨⟩⟩ := h
    exact hbyte
  · rw [locate_out p c hq, Option.ite_none_right_eq_some] at h
    obtain ⟨⟨hbank, hbyte⟩, ⟨⟩⟩ := h
    exact ⟨(Nat.mod_le c 16).trans_lt hbank, hbyte⟩

/-- `BMAX` entries of 8 bytes are at most `NMAX` bytes (00_scope.md R9). -/
theorem eight_mul_bmax_le (p : Params) : 8 * p.bmax ≤ p.nmax := Nat.mul_div_le p.nmax 8

/-- The map finds every place that exists at its own offset. -/
theorem locate_offset {p : Params} {l : Loc} (hp : p.wf = true) (h : l.present p) : locate p l.offset = some l := by
  obtain ⟨-, hnmax, -⟩ := Params.bounds_of_wf hp
  have hbmax := eight_mul_bmax_le p
  cases l with
  | txt q => exact (locate_txt p (by simp only [Loc.present] at h; omega)).trans (if_pos h)
  | blk q => exact (locate_blk p (by simp only [Loc.present] at h; omega)).trans (if_pos h)
  | out c q =>
    obtain ⟨hbank, hbyte⟩ := h
    rw [Loc.offset, locate_out p c.val (by omega), if_pos ⟨hbank, hbyte⟩, Fin.ofNat_val_eq_self]
  | seed j | key j | ckey j => exact locate_register_offset p (by simp only [Loc.offset]; omega)
  | _ => exact locate_register_offset p (by decide)

/-- Settles O41. -/
theorem offsetsLocateThePlaces : Obligations.OffsetsLocateThePlaces := by
  unfold Obligations.OffsetsLocateThePlaces
  intro p off l hp hoff
  have hmap : locate p off = some l ↔ l.offset = off ∧ l.present p :=
    ⟨fun h => ⟨offset_of_locate hoff h, present_of_locate h⟩, fun ⟨hl, hex⟩ => hl ▸ locate_offset hp hex⟩
  cases l <;> exact hmap

end Sys2Proof.Machine

/-! PROOF. The windows of the bus (20_memory.md R68, R69): an idle read or write of any place that exists, then the word
each window shows. -/

namespace Sys2Proof.Machine

/-! ### A read or a write of a place that exists (30_encoding.md R97) -/

theorem offset_lt_of_present {p : Params} {l : Loc} (hp : p.wf = true) (h : l.present p) : l.offset < 0x20000 := by
  obtain ⟨-, hnmax, hnctx⟩ := Params.bounds_of_wf hp
  have hbmax := eight_mul_bmax_le p
  cases l with
  | txt q | blk q | out c q => simp only [Loc.present, Loc.offset] at h ⊢; omega
  | seed j | key j | ckey j => simp only [Loc.offset]; omega
  | _ => decide

theorem target_offset {p : Params} {l : Loc} (hp : p.wf = true) (h : l.present p) (haligned : l.offset % 4 = 0)
    (d : Option Word) : target p ⟨BitVec.ofNat 17 l.offset, 4, d⟩ = some l := by
  have haddr : (BitVec.ofNat 17 l.offset).toNat = l.offset := by
    rw [BitVec.toNat_ofNat, Nat.mod_eq_of_lt (offset_lt_of_present hp h)]
  simp only [target, haddr, haligned, and_self, if_true, locate_offset hp h]

theorem step_rd (l : Loc) {s : State} {rest : List Input} (hp : s.params.wf = true) (hb : s.busy = false)
    (hl : l.present s.params) (haligned : l.offset % 4 = 0) (hi : s.inputs = rd l :: rest) :
    step s = .next { advance rest s with reply := some (loadLoc l s) } :=
  step_read_idle hi rfl hb (target_offset hp hl haligned none)

theorem step_wr (l : Loc) {s : State} {w : Word} {rest : List Input} (hp : s.params.wf = true) (hb : s.busy = false)
    (hl : l.present s.params) (haligned : l.offset % 4 = 0) (hne : l ≠ .cmd) (hi : s.inputs = wr l w :: rest) :
    step s = .next (storeLoc l w (advance rest s)) :=
  step_write_idle hi rfl hb (target_offset hp hl haligned (some w)) hne

/-! ### The word a window shows -/

theorem windowWord_toNat (sp : Space) (p : Nat) (s : State) : (windowWord sp p s).toNat = memRead sp p 4 s :=
  (BitVec.toNat_ofNat _ _).trans (Nat.mod_eq_of_lt (memRead_lt sp p 4 s))

/-- Byte `j` of a window word is the memory's byte at the `j`th address. -/
theorem windowWord_byte (sp : Space) (p : Nat) (s : State) {j : Nat} (hj : j < 4) :
    (windowWord sp p s >>> (8 * j)).setWidth 8 = readByte sp (p + j) s := by
  rw [byte_eq_ofNat, windowWord_toNat, memRead_digit sp s hj]

/-- An entry as its two window words. -/
theorem blkEntry_toNat (j : Nat) (s : State) :
    (blkEntry j s).toNat = memRead .blk (8 * j) 4 s + 2 ^ 32 * memRead .blk (8 * j + 4) 4 s :=
  calc (blkEntry j s).toNat
      = memRead .blk (8 * j) (4 + 4) s :=
        (BitVec.toNat_ofNat _ _).trans (Nat.mod_eq_of_lt (memRead_lt .blk (8 * j) 8 s))
    _ = _ := memRead_add .blk (8 * j) 4 4 s

theorem windowWord_blk_low (j : Nat) (s : State) :
    windowWord .blk (8 * j) s = (blkEntry j s).extractLsb' 0 32 := by
  refine BitVec.eq_of_toNat_eq ?_
  have hlow : memRead .blk (8 * j) 4 s < 2 ^ 32 := memRead_lt .blk (8 * j) 4 s
  rw [windowWord_toNat, BitVec.extractLsb'_toNat, blkEntry_toNat, Nat.shiftRight_zero, Nat.add_mul_mod_self_left,
    Nat.mod_eq_of_lt hlow]

theorem windowWord_blk_high (j : Nat) (s : State) :
    windowWord .blk (8 * j + 4) s = (blkEntry j s).extractLsb' 32 32 := by
  refine BitVec.eq_of_toNat_eq ?_
  have hlow : memRead .blk (8 * j) 4 s < 2 ^ 32 := memRead_lt .blk (8 * j) 4 s
  have hhigh : memRead .blk (8 * j + 4) 4 s < 2 ^ 32 := memRead_lt .blk (8 * j + 4) 4 s
  rw [windowWord_toNat, BitVec.extractLsb'_toNat, blkEntry_toNat, Nat.shiftRight_eq_div_pow,
    Nat.add_mul_div_left _ _ (by decide), Nat.div_eq_of_lt hlow, Nat.zero_add, Nat.mod_eq_of_lt hhigh]

/-- A chunk word wholly inside the text is padded nowhere. -/
theorem pack32LE_eq_windowWord {n off : Nat} (s : State) (h : off + 4 ≤ n - 1) :
    pack32LE n off s = windowWord .txt off s := by
  have inside (p : Nat) (hp : p < n - 1) : txtByte n p s = (readByte .txt p s).toNat := if_pos hp
  rw [pack32LE, inside off (by omega), inside (off + 1) (by omega), inside (off + 2) (by omega),
    inside (off + 3) (by omega)]
  refine congrArg (BitVec.ofNat 32) ?_
  simp only [memRead, Nat.add_assoc, Nat.reduceAdd]
  omega

/-! ### The obligations -/

/-- Settles O37: the store to a TXT place writes four bytes, its word shows them. -/
theorem txtWindowIsLittleEndian : Obligations.TxtWindowIsLittleEndian := by
  unfold Obligations.TxtWindowIsLittleEndian
  intro s p rest hp hb haligned hlt
  have hoff : (Loc.txt p).offset % 4 = 0 := by simp only [Loc.offset]; omega
  refine ⟨fun w hi => ⟨_, step_wr (.txt p) hp hb hlt hoff (by simp) hi, ?_, fun j hj => ?_, fun a ha => ?_,
    fun sp a hsp => ?_⟩, fun hi => ⟨_, step_rd (.txt p) hp hb hlt hoff hi, fun j hj => windowWord_byte .txt p s hj⟩⟩
  · exact memWrite_txt_eq p 4 w.toNat (advance rest s)
  · rw [byte_eq_ofNat]
    exact readByte_memWrite_digit .txt w.toNat (advance rest s) hj
  · exact readByte_memWrite_outside .txt p 4 w.toNat a (advance rest s) ha
  · exact readByte_memWrite_space .txt sp p 4 w.toNat a (advance rest s) hsp

/-- Settles O38. -/
theorem outWindowIsLittleEndian : Obligations.OutWindowIsLittleEndian := by
  unfold Obligations.OutWindowIsLittleEndian
  intro s c p rest hp hb hc haligned hlt hi
  have hoff : (Loc.out c p).offset % 4 = 0 := by simp only [Loc.offset]; omega
  exact ⟨_, step_rd (.out c p) hp hb ⟨hc, hlt⟩ hoff hi, fun j hj => windowWord_byte (.out c) p s hj⟩

/-- Settles O39. -/
theorem blkWindowIsLowWordFirst : Obligations.BlkWindowIsLowWordFirst := by
  unfold Obligations.BlkWindowIsLowWordFirst
  intro s j rest hp hb hj
  have read (q : Nat) (hq : q < 8 * s.params.bmax) (haligned : q % 4 = 0) (hi : s.inputs = rd (.blk q) :: rest) :
      step s = .next { advance rest s with reply := some (windowWord .blk q s) } :=
    step_rd (.blk q) hp hb hq (by simp only [Loc.offset]; omega) hi
  refine ⟨fun hi => ?_, fun hi => ?_⟩
  · rw [← windowWord_blk_low]
    exact read (8 * j) (by omega) (by omega) hi
  · rw [← windowWord_blk_high]
    exact read (8 * j + 4) (by omega) (by omega) hi

/-- Settles O40. -/
theorem fullChunkWordIsTheBusWord : Obligations.FullChunkWordIsTheBusWord := by
  unfold Obligations.FullChunkWordIsTheBusWord
  intro s n off rest hp hb haligned hinside hn hi
  have hlt : off < s.params.nmax := by omega
  rw [pack32LE_eq_windowWord s hinside]
  exact step_rd (.txt off) hp hb hlt (by simp only [Loc.offset]; omega) hi

end Sys2Proof.Machine

/-! PROOF. The accesses the port refuses (20_memory.md R71, 10_state.md R41, R42): where nothing stands, what is
read-only, and the two steps that record ERR_BUS. -/

namespace Sys2Proof.Machine

/-! ### Reserved and read-only offsets -/

/-- The offsets at which nothing stands: between the registers and above the bytes of each window (R42, R70). -/
def ReservedOffset (p : Params) (off : Nat) : Prop :=
  off = 0x00C ∨ off = 0x048 ∨ off = 0x04C ∨ (0x060 ≤ off ∧ off < 0x1000) ∨
    (0x1000 + p.nmax ≤ off ∧ off < 0x2000) ∨ (0x2000 + 8 * p.bmax ≤ off ∧ off < 0x10000) ∨
    (0x10000 ≤ off ∧ (p.nctx ≤ (off - 0x10000) / 0x1000 ∨ p.nmax ≤ (off - 0x10000) % 0x1000))

/-- The offsets of STATUS, KEY, RES, CLEN, BCNT, CKEY and of the BLK and OUT windows. -/
def ReadOnlyOffset (off : Nat) : Prop :=
  off = 0x004 ∨ (0x020 ≤ off ∧ off < 0x030) ∨ (0x038 ≤ off ∧ off < 0x048) ∨ (0x050 ≤ off ∧ off < 0x060) ∨
    (0x2000 ≤ off ∧ off < 0x10000) ∨ 0x10000 ≤ off

/-- The places the host can read and not write (10_state.md R41, 20_memory.md R68). -/
def Loc.readOnly : Loc → Bool
  | .cmd | .len | .seed _ | .v0 | .v1 | .txt _ => false
  | _ => true

theorem storeLoc_readOnly {l : Loc} (h : l.readOnly = true) (w : Word) (s : State) :
    storeLoc l w s = refuse .bus s := by
  cases l with
  | cmd | len | seed j | v0 | v1 | txt p => cases h
  | _ => rfl

/-- The gaps of the register table. -/
theorem not_gap_of_mem_registerMap :
    ∀ e ∈ registerMap, e.1 ≠ 0x00C ∧ e.1 ≠ 0x048 ∧ e.1 ≠ 0x04C ∧ e.1 < 0x060 := by decide

theorem readOnly_of_mem_registerMap :
    ∀ e ∈ registerMap, (e.1 = 0x004 ∨ (0x020 ≤ e.1 ∧ e.1 < 0x030) ∨ (0x038 ≤ e.1 ∧ e.1 < 0x048) ∨ 0x050 ≤ e.1) →
      e.2.readOnly = true := by decide

theorem locate_reserved {p : Params} {off : Nat} (h : ReservedOffset p off) : locate p off = none := by
  unfold ReservedOffset at h
  obtain hoff | ⟨q, hq, rfl⟩ | ⟨q, hq, rfl⟩ | ⟨c, q, hq, rfl⟩ := offset_regions off
  · rw [locate_register p hoff, List.lookup_eq_none_iff]
    intro e he
    have hgap := not_gap_of_mem_registerMap e he
    rw [bne_iff_ne]
    omega
  · rw [locate_txt p hq, if_neg (by omega)]
  · rw [locate_blk p hq, if_neg (by omega)]
  · rw [locate_out p c hq, if_neg (by omega)]

/-- Whatever stands at a read-only offset is a read-only place. -/
theorem readOnly_of_locate {p : Params} {off : Nat} {l : Loc} (hoff : ReadOnlyOffset off)
    (h : locate p off = some l) : l.readOnly = true := by
  unfold ReadOnlyOffset at hoff
  obtain hreg | ⟨q, hq, rfl⟩ | ⟨q, hq, rfl⟩ | ⟨c, q, hq, rfl⟩ := offset_regions off
  · rw [locate_register p hreg] at h
    exact readOnly_of_mem_registerMap _ (mem_registerMap_of_lookup h) (by simp only; omega)
  · omega
  · rw [locate_blk p hq, Option.ite_none_right_eq_some] at h
    obtain ⟨-, ⟨⟩⟩ := h
    rfl
  · rw [locate_out p c hq, Option.ite_none_right_eq_some] at h
    obtain ⟨-, ⟨⟩⟩ := h
    rfl

/-! ### Where a refused transaction goes -/

/-- The transaction is no aligned 32-bit word, or nothing stands at its offset. -/
theorem target_eq_none {p : Params} {a : Access}
    (h : (a.bytes ≠ 4 ∨ a.addr.toNat % 4 ≠ 0) ∨ ReservedOffset p a.addr.toNat) : target p a = none := by
  unfold target
  split
  · next hword =>
    obtain ⟨hbytes, haligned⟩ := hword
    exact locate_reserved (h.resolve_left (by simp [hbytes, haligned]))
  · rfl

theorem readOnly_of_target {p : Params} {a : Access} {l : Loc} (hoff : ReadOnlyOffset a.addr.toNat)
    (h : target p a = some l) : l.readOnly = true := by
  rw [target, Option.ite_none_right_eq_some] at h
  exact readOnly_of_locate hoff h.2

/-! ### The refused steps -/

/-- An idle read where nothing stands returns 0 and records ERR_BUS. -/
theorem step_read_refused {s : State} {a : Access} {rest : List Input} (hi : s.inputs = .bus a :: rest)
    (hd : a.data = none) (hb : s.busy = false) (hl : target s.params a = none) :
    step s = .next { advance rest s with err := if s.err = 0 then 7 else s.err, reply := some 0 } := by
  rw [step_bus s a rest hi]
  simp only [busTurn, hd, busRead, advance_busy, advance_params, hb, hl, refuse_eq]
  rfl

/-- An idle write where nothing writable stands records ERR_BUS. -/
theorem step_write_refused {s : State} {a : Access} {rest : List Input} (hi : s.inputs = .bus a :: rest)
    (hd : a.data ≠ none) (hb : s.busy = false) (hl : ∀ l, target s.params a = some l → l.readOnly = true) :
    step s = .next { advance rest s with err := if s.err = 0 then 7 else s.err } := by
  obtain ⟨w, hw⟩ := Option.ne_none_iff_exists'.1 hd
  have refused : step s = .next (refuse .bus (advance rest s)) := by
    cases ht : target s.params a with
    | none =>
      rw [step_bus s a rest hi]
      simp [busTurn, busWrite, hw, hb, ht]
    | some l =>
      have hro := hl l ht
      have hcmd : l ≠ .cmd := by
        rintro rfl
        cases hro
      rw [step_write_idle hi hw hb ht hcmd, storeLoc_readOnly hro]
  rw [refused, refuse_eq]
  rfl

/-- No read is refused while BUSY = 1. -/
theorem step_read_busy_err {s : State} {a : Access} {rest : List Input} (hi : s.inputs = .bus a :: rest)
    (hd : a.data = none) (hb : s.busy = true) : ∃ t, step s = .next t ∧ t.err = s.err := by
  by_cases hstatus : target s.params a = some .status
  · exact ⟨_, step_readStatus_busy hi hd hb hstatus, rfl⟩
  by_cases hcmd : target s.params a = some .cmd
  · exact ⟨_, step_readCmd_busy hi hd hb hcmd, rfl⟩
  · exact ⟨_, step_readOther_busy hi hd hb hstatus hcmd, rfl⟩

/-! ### The obligation -/

/-- Settles O35. -/
theorem refusedBusAccesses : Obligations.RefusedBusAccesses := by
  unfold Obligations.RefusedBusAccesses
  intro s a rest hi
  refine ⟨fun hb hd h => step_read_refused hi hd hb (target_eq_none h),
    fun hb hd h => step_write_refused hi hd hb fun l hl => ?_,
    fun hb hd h4 h0 => ?_, fun hb hd => step_write_busy hi hd hb, fun hb hd => step_read_busy_err hi hd hb⟩
  · obtain hword | hreserved | hreadOnly := h
    · cases (target_eq_none (.inl hword)).symm.trans hl
    · cases (target_eq_none (.inr hreserved)).symm.trans hl
    · exact readOnly_of_target hreadOnly hl
  · exact step_read_idle hi hd hb ((target_cmd _ _).2 ⟨h4, BitVec.eq_of_toNat_eq h0⟩)

end Sys2Proof.Machine

/-! PROOF. The command word (30_encoding.md R91 to R95): a word is its three fields, a decoded word is the command word
of its command, and a word that decodes to none breaks R95. -/

namespace Sys2Proof

open Sys2Proof.Laws.EncodingFields

/-! ### A word and its fields -/

theorem word_eq_of_fields {w w' : Word} (hrsv : rsvField w = rsvField w') (hctx : ctxField w = ctxField w')
    (hopc : opcField w = opcField w') : w = w' := by
  have hrsv : w.toNat / 2 ^ 12 % 2 ^ 20 = w'.toNat / 2 ^ 12 % 2 ^ 20 := by
    simpa [rsvField, Nat.shiftRight_eq_div_pow] using congrArg BitVec.toNat hrsv
  have hctx : w.toNat / 2 ^ 8 % 2 ^ 4 = w'.toNat / 2 ^ 8 % 2 ^ 4 := by
    simpa [ctxField, Nat.shiftRight_eq_div_pow] using congrArg BitVec.toNat hctx
  have hopc : w.toNat % 2 ^ 8 = w'.toNat % 2 ^ 8 := by
    simpa [opcField] using congrArg BitVec.toNat hopc
  exact BitVec.eq_of_toNat_eq (by omega)

/-- The fields of every command word, the laws of the six commands together. -/
theorem encode_fields (i : Instr) : Statement i := by
  cases i with
  | kderive => exact Laws.EncodingFields.kderive
  | encblk => exact Laws.EncodingFields.encblk
  | decblk => exact Laws.EncodingFields.decblk
  | make => exact Laws.EncodingFields.make
  | decrypt c => exact Laws.EncodingFields.decrypt c
  | clrerr => exact Laws.EncodingFields.clrerr

/-- A word with RSV = 0 and the OPC and CTX of a command is that command's word. -/
theorem encode_eq_of_fields {w : Word} {i : Instr} (hrsv : rsvField w = 0) (hctx : ctxField w = ctxField (encode i))
    (hopc : opcField w = opcodeOf i) : encode i = w := by
  obtain ⟨rsv_encode, opc_encode, -⟩ := encode_fields i
  exact word_eq_of_fields (rsv_encode.trans hrsv.symm) hctx.symm (opc_encode.trans hopc.symm)

/-! ### Decoding and encoding -/

/-- A decoded command is well formed, and the word is its command word: the branches of R94 that answer a command. -/
theorem encode_of_decode {w : Word} {i : Instr} (h : decode w = .ok i) : i.wf = true ∧ encode i = w := by
  unfold decode at h
  split at h
  · cases h
  next hrsv =>
  have hrsv : rsvField w = 0 := not_not.1 hrsv
  split at h
  · next hopc =>
    obtain rfl := Except.ok.inj h
    obtain ⟨-, -, ctx_encode⟩ := encode_fields (.decrypt (ctxField w).toNat)
    exact ⟨decide_eq_true (ctxField w).isLt, encode_eq_of_fields hrsv (by simp [ctx_encode]) hopc⟩
  split at h
  · cases h
  next hctx =>
  have hctx : ctxField w = 0 := not_not.1 hctx
  split_ifs at h
  all_goals
    cases h
    exact ⟨rfl, encode_eq_of_fields hrsv hctx ‹_›⟩

theorem decode_encode {i : Instr} (h : i.wf = true) : decode (encode i) = .ok i := by
  cases i with
  | decrypt c =>
    obtain ⟨hrsv, hopc, hctx⟩ := encode_fields (.decrypt c)
    have hc : c < 16 := of_decide_eq_true h
    simp [decode, hrsv, hopc, hctx, opcodeOf, Nat.mod_eq_of_lt hc]
  | _ => decide

/-- Settles O1. -/
theorem decodeInvertsEncode : Obligations.DecodeInvertsEncode := by
  unfold Obligations.DecodeInvertsEncode
  intro w i
  constructor
  · exact encode_of_decode
  · rintro ⟨hwf, rfl⟩
    exact decode_encode hwf

/-! ### Illegal words (30_encoding.md R95) -/

/-- The words R95 lists: RSV is not 0, OPC is no opcode, or CTX is not 0 in a command that has no context. -/
def IllegalWord (w : Word) : Prop :=
  rsvField w ≠ 0 ∨
    opcField w ∉ [0x01#8, 0x02#8, 0x03#8, 0x04#8, 0x05#8, 0x0F#8] ∨
    (opcField w ∈ [0x01#8, 0x02#8, 0x03#8, 0x04#8, 0x0F#8] ∧ ctxField w ≠ 0)

theorem not_illegalWord_encode (i : Instr) : ¬ IllegalWord (encode i) := by
  obtain ⟨hrsv, hopc, hctx⟩ := encode_fields i
  simp only [IllegalWord, hrsv, hopc, hctx]
  cases i <;> simp [opcodeOf]

/-- The branches of R94 that answer no command. -/
theorem illegalWord_of_decode {w : Word} {e : Illegal} (h : decode w = .error e) : IllegalWord w := by
  unfold decode at h
  split at h
  · next hrsv => exact .inl hrsv
  split at h
  · cases h
  next hdecrypt =>
  split at h
  · next hctx =>
    by_cases hopc : opcField w ∈ [0x01#8, 0x02#8, 0x03#8, 0x04#8, 0x0F#8]
    · exact .inr (.inr ⟨hopc, hctx⟩)
    · exact .inr (.inl (by simp_all))
  · split_ifs at h
    exact .inr (.inl (by simp_all))

theorem decode_error_iff (w : Word) : (∃ e, decode w = .error e) ↔ IllegalWord w := by
  constructor
  · rintro ⟨e, he⟩
    exact illegalWord_of_decode he
  · intro hw
    cases hd : decode w with
    | error e => exact ⟨e, rfl⟩
    | ok i =>
      obtain ⟨-, rfl⟩ := encode_of_decode hd
      exact absurd hw (not_illegalWord_encode i)

/-- R190 steps 2 and 3: an illegal word changes ERR and nothing else, and ERR only if it was 0. -/
theorem step_illegalWord_idle {s : Machine.State} {w : Word} {e : Illegal} {rest : List Machine.Input}
    (hi : s.inputs = Machine.commandWrite w :: rest) (hb : s.busy = false) (hd : decode w = .error e) :
    Machine.step s = .next { Machine.advance rest s with err := if s.err = 0 then 1 else s.err } := by
  rw [Machine.step_commandWrite_idle hi hb, Machine.writeCommand, hd]
  exact congrArg _ (Machine.refuse_eq .opcode _)

/-- Settles O2. -/
theorem illegalWordsAreThoseListed : Obligations.IllegalWordsAreThoseListed := by
  unfold Obligations.IllegalWordsAreThoseListed
  have zero_illegal : IllegalWord 0 := .inr (.inl (by decide))
  exact ⟨decode_error_iff, (decode_error_iff 0).2 zero_illegal, fun _ _ _ _ => step_illegalWord_idle⟩

/-- Settles O3: the ten words are closed, so decoding each is a computation. -/
theorem specWordsDecode : Obligations.SpecWordsDecode := by
  unfold Obligations.SpecWordsDecode
  decide

end Sys2Proof

/-! PROOF. The WAIT of a script on a busy engine (30_encoding.md R97, 43_system.md R193): reads of STATUS while
BUSY = 1, the completion, one read more. -/

namespace Sys2Proof.Machine

/-! ### An admitted command completes (43_system.md R192) -/

/-- The conditions tested at acceptance keep every access of the completion inside its memories (20_memory.md R60). -/
theorem fitsOf_of_stillAdmitted {i : Instr} {s : State} (h : s.Invariant) (hi : stillAdmitted i s = true) :
    fitsOf i s = true := by
  have fits {n : Nat} (hn : supported s.params n = true) :
      1 ≤ n ∧ n ≤ s.params.nmax ∧ blockCount n ≤ s.params.bmax := by
    obtain ⟨hmul, -, -⟩ := Params.bounds_of_wf h.params
    simp only [supported, Bool.and_eq_true, decide_eq_true_eq] at hn
    obtain ⟨⟨hpos, hmax⟩, -⟩ := hn
    refine ⟨hpos, hmax, ?_⟩
    simp only [blockCount, Params.bmax]
    omega
  cases i with
  | make => simpa [fitsOf, makeFits, and_assoc] using fits hi
  | decrypt c =>
    simp only [stillAdmitted, Bool.and_eq_true, decide_eq_true_eq] at hi
    obtain ⟨hc, hvalid⟩ := hi
    have hcont := h.container hvalid
    simp only [containerOk, Bool.and_eq_true, decide_eq_true_eq] at hcont
    obtain ⟨hclen, hbcnt⟩ := hcont
    simpa [fitsOf, decryptFits, hbcnt, hc, and_assoc] using fits hclen
  | _ => rfl

/-- The pseudocode of a command touches neither ERR nor the inputs. -/
theorem bodyOf_err_inputs {s : State} {i : Instr} (h : inProgress s = some i) :
    (bodyOf i s).err = s.err ∧ (bodyOf i s).inputs = s.inputs := by
  rcases bodyOf_cases s h with ⟨-, hbody⟩ | ⟨-, r, hbody⟩ | ⟨-, b, hbody⟩ | ⟨-, o, -, hbody⟩ <;>
    (rw [hbody]; exact ⟨rfl, rfl⟩)

/-- Under the invariant the engine's turn, BUSY = 1, is the completion of the command in progress. -/
theorem step_engine_completes {s : State} {rest : List Input} (h : s.Invariant) (hb : s.busy = true)
    (hi : s.inputs = .engine :: rest) :
    ∃ i, inProgress s = some i ∧ step s = .next (finish (bodyOf i (advance rest s))) := by
  have hcmd := h.command hb
  unfold commandOk at hcmd
  split at hcmd
  · next i hp =>
    have hp' : inProgress (advance rest s) = some i := hp
    have hadv : (advance rest s).Invariant := invariant_err h rest h.err none s.draws
    have hfits : fitsOf i (advance rest s) = true := fitsOf_of_stillAdmitted hadv (by cases i <;> exact hcmd)
    refine ⟨i, hp, ?_⟩
    rw [step_engine s rest hi, engineTurn, advance_busy, hb, if_pos rfl, hp']
    exact exec_completes i _ hb hp' hfits
  · cases hcmd

/-- What a completion shows the host: BUSY = 0, DONE = 1, ERR as before. -/
theorem step_engine_done {s : State} {rest : List Input} (h : s.Invariant) (hb : s.busy = true)
    (hi : s.inputs = .engine :: rest) :
    ∃ t, step s = .next t ∧ t.inputs = rest ∧ t.busy = false ∧ t.done = true ∧ t.err = s.err := by
  obtain ⟨i, hp, hstep⟩ := step_engine_completes h hb hi
  obtain ⟨herr, hinputs⟩ := bodyOf_err_inputs (s := advance rest s) hp
  exact ⟨_, hstep, hinputs, rfl, rfl, herr⟩

/-! ### Runs -/

theorem run_succ_of_step {s t : State} (h : step s = .next t) (n : Nat) : core.run (n + 1) s = core.run n t := by
  have hstep : core.step s = .next t := h
  simp only [Host.Core.run, hstep]

/-- Reads of STATUS while BUSY = 1 take their inputs, and touch nothing but the reply. -/
theorem run_statusReads (k n : Nat) {s : State} {rest : List Input} (hb : s.busy = true)
    (hi : s.inputs = List.replicate k (rd .status) ++ rest) :
    ∃ r, core.run (n + k) s = core.run n { s with inputs := rest, reply := r } := by
  induction k generalizing s with
  | zero =>
    obtain rfl : s.inputs = rest := hi
    exact ⟨s.reply, rfl⟩
  | succ k ih =>
    have hread : step s = _ := step_readStatus_busy hi rfl hb (target_status _ _)
    obtain ⟨r, hr⟩ := ih (s := { advance (List.replicate k (rd .status) ++ rest) s with
      reply := some (statusWord s) }) hb rfl
    exact ⟨r, (run_succ_of_step hread (n + k)).trans hr⟩

/-- Settles O52: the busy reads, the completion, the idle read. -/
theorem waitEndsWhenTheCommandCompletes : Obligations.WaitEndsWhenTheCommandCompletes := by
  unfold Obligations.WaitEndsWhenTheCommandCompletes
  intro s k rest hinv hb hi
  rw [State.inv_iff] at hinv
  have hinputs : s.inputs = List.replicate k (rd .status) ++ .engine :: rd .status :: rest := by
    simp [hi, wait]
  obtain ⟨r, reads⟩ := run_statusReads k 2 hb hinputs
  obtain ⟨t, completes, ht, hbusy, hdone, herr⟩ :=
    step_engine_done (invariant_err hinv (.engine :: rd .status :: rest) hinv.err r s.draws) hb rfl
  have last : step t = .next { advance rest t with reply := some (statusWord t) } :=
    step_read_idle (l := .status) ht rfl hbusy (target_status _ _)
  obtain ⟨busy_bit, done_bit, -⟩ := statusWord_flags t
  refine ⟨{ advance rest t with reply := some (statusWord t) }, statusWord t, ?_, rfl, hbusy, hdone, herr, rfl,
    busy_bit.trans hbusy, done_bit.trans hdone⟩
  calc core.run (k + 2) s = core.run (2 + k) s := by rw [Nat.add_comm]
    _ = core.run 2 { s with inputs := .engine :: rd .status :: rest, reply := r } := reads
    _ = core.run 1 t := run_succ_of_step completes 1
    _ = .next { advance rest t with reply := some (statusWord t) } := run_succ_of_step last 0

end Sys2Proof.Machine

/-! PROOF. Key derivation (40_key_derivation.md): the permutation and its inverse, then KDERIVE at its two moments, the
acceptance of a command whose check finds nothing (43_system.md R190) and the completion (R192). -/

namespace Sys2Proof.Machine

/-! ### The permutation (R110) -/

/-- The inverse that R110 states. -/
def seedOfKey (k : Key) : Key := #v[k[1], k[3], k[0], k[2]]

/-- A key is its four words. -/
theorem key_eq_words (k : Key) : #v[k[0], k[1], k[2], k[3]] = k := by
  ext j hj
  interval_cases j <;> rfl

theorem seedOfKey_keyDerive (s : Key) : seedOfKey (keyDerive s) = s := key_eq_words s

theorem keyDerive_seedOfKey (k : Key) : keyDerive (seedOfKey k) = k := key_eq_words k

/-- Settles O7. -/
theorem keyDerivationIsThePermutation : Obligations.KeyDerivationIsThePermutation := by
  unfold Obligations.KeyDerivationIsThePermutation
  intro s k
  refine ⟨rfl, ?_, ?_⟩
  · rintro rfl
    exact (seedOfKey_keyDerive s).symm
  · rintro rfl
    exact keyDerive_seedOfKey k

/-! ### The command (R113) -/

/-- R190 steps 2 and 5, for a command whose check (step 4) finds nothing: it is latched, unless ERR is set. -/
theorem exec_idle_of_check_none {i : Instr} {s : State} (hne : i ≠ .clrerr) (hb : s.busy = false)
    (hcheck : checkOf i s = none) : exec i s = .next (if s.err = 0 then latch i s else s) := by
  rw [exec_idle i s hne hb]
  rcases accept_cases i (checkOf i) s with ⟨herr, h⟩ | ⟨-, c, hc, -⟩ | ⟨herr, -, h⟩
  · rw [h, if_neg herr]
  · rw [hcheck] at hc
    cases hc
  · rw [h, if_pos herr]

theorem latch_kderive (s : State) :
    latch .kderive s = { s with op := 0x01, ctxl := 0, busy := true, done := false } := by
  obtain ⟨-, hopc, hctx⟩ := Laws.EncodingFields.kderive
  simp only [latch, hopc, hctx, Laws.EncodingFields.opcodeOf]

/-- Settles O8: the word, the acceptance, the completion. -/
theorem kderiveLoadsThePermutedSeed : Obligations.KderiveLoadsThePermutedSeed := by
  unfold Obligations.KderiveLoadsThePermutedSeed
  refine ⟨by decide, fun s hb => ?acceptance, fun s hb hop => ?completion⟩
  case acceptance =>
    have accepted := exec_idle_of_check_none (i := .kderive) (s := s) (by decide) hb rfl
    rwa [latch_kderive] at accepted
  case completion =>
    exact exec_completes .kderive s hb (inProgress_kderive s hop) rfl

end Sys2Proof.Machine

/-! PROOF. The block cipher (41_block_cipher.md R122 to R127): the values of one round, the accumulator over any number
of rounds, and that decryption and encryption undo each other. -/

namespace Sys2Proof.Machine

/-! ### One round (R122 to R124) -/

/-- Settles O9. -/
theorem feistelFunctionValue : Obligations.FeistelFunctionValue := by
  unfold Obligations.FeistelFunctionValue
  exact ⟨fun _ _ _ _ => rfl, by decide⟩

/-- Settles O10: both directions substitute the three values. -/
theorem encryptionRoundValue : Obligations.EncryptionRoundValue := by
  unfold Obligations.EncryptionRoundValue
  refine ⟨fun k v0 v1 sum v0' v1' sum' => ⟨?_, ?_⟩, by decide⟩
  · rintro ⟨⟩
    exact ⟨rfl, rfl, rfl⟩
  · rintro ⟨rfl, rfl, rfl⟩
    rfl

/-- A decryption round takes the three sums of the encryption round back, the last one first. -/
theorem decRound_encRound (k : Key) : Function.LeftInverse (decRound k) (encRound k) := fun r => by
  simp only [decRound, encRound, add32, sub32, BitVec.add_sub_cancel]

theorem encRound_decRound (k : Key) : Function.LeftInverse (encRound k) (decRound k) := fun r => by
  simp only [decRound, encRound, add32, sub32, BitVec.sub_add_cancel]

/-- Settles O11: the values by substitution, the inversion from `decRound_encRound`. -/
theorem decryptionRoundUndoesEncryptionRound : Obligations.DecryptionRoundUndoesEncryptionRound := by
  unfold Obligations.DecryptionRoundUndoesEncryptionRound
  refine ⟨fun k v0 v1 sum v0' v1' sum' => ⟨?_, ?_⟩, decRound_encRound, by decide⟩
  · rintro ⟨⟩
    exact ⟨rfl, rfl, rfl⟩
  · rintro ⟨rfl, rfl, rfl⟩
    rfl

/-! ### Many rounds (R125) -/

/-- "repeat n times" is the library's iteration. -/
theorem repeated_eq_iterate {α : Type} (f : α → α) (n : Nat) : repeated f n = f^[n] := by
  funext a
  induction n with
  | zero => rfl
  | succ n ih => rw [repeated, ih, Function.iterate_succ_apply']

/-- If `g` undoes `f`, then `n` times `g` undoes `n` times `f`. -/
theorem repeated_leftInverse {α : Type} {f g : α → α} (h : Function.LeftInverse g f) (n : Nat) :
    Function.LeftInverse (repeated g n) (repeated f n) := by
  rw [repeated_eq_iterate, repeated_eq_iterate]
  exact h.iterate n

theorem sum_encRounds (k : Key) (n : Nat) (r : RoundState) :
    (repeated (encRound k) n r).sum = r.sum + BitVec.ofNat 32 (delta.toNat * n) := by
  induction n with
  | zero => simp [repeated]
  | succ n ih =>
    calc (repeated (encRound k) (n + 1) r).sum
        = r.sum + BitVec.ofNat 32 (delta.toNat * n) + delta := by rw [← ih]; rfl
      _ = r.sum + BitVec.ofNat 32 (delta.toNat * (n + 1)) := by
        rw [Nat.mul_succ, BitVec.ofNat_add, BitVec.ofNat_toNat, BitVec.setWidth_eq, BitVec.add_assoc]

/-- The decryption rounds take the accumulator back: the encryption rounds from their end pass it forward again. -/
theorem sum_decRounds (k : Key) (n : Nat) (r : RoundState) :
    (repeated (decRound k) n r).sum = r.sum - BitVec.ofNat 32 (delta.toNat * n) := by
  have forward := sum_encRounds k n (repeated (decRound k) n r)
  rw [repeated_leftInverse (encRound_decRound k) n r] at forward
  rw [forward, BitVec.add_sub_cancel]

/-- `INITSUM` of R125, in figures. -/
theorem initSum_eq : initSum = 0x8DDE6E40 := by decide

/-- The rounds of `ENC` end with `INITSUM`; their halves, packed, are its value. -/
theorem enc_rounds (v0 v1 : Word) (k : Key) :
    ∃ w0 w1, repeated (encRound k) rounds ⟨v0, v1, 0⟩ = ⟨w0, w1, initSum⟩ ∧ enc v0 v1 k = packBlock w0 w1 := by
  have hsum : (repeated (encRound k) rounds ⟨v0, v1, 0⟩).sum = initSum :=
    (sum_encRounds k rounds _).trans (BitVec.zero_add _)
  exact ⟨_, _, by rw [← hsum], rfl⟩

/-- The rounds of `DEC` end with 0; their halves, packed, are its value. -/
theorem dec_rounds (v0 v1 : Word) (k : Key) :
    ∃ w0 w1, repeated (decRound k) rounds ⟨v0, v1, initSum⟩ = ⟨w0, w1, 0⟩ ∧ dec v0 v1 k = packBlock w0 w1 := by
  have hsum : (repeated (decRound k) rounds ⟨v0, v1, initSum⟩).sum = 0 :=
    (sum_decRounds k rounds _).trans (BitVec.sub_self _)
  exact ⟨_, _, by rw [← hsum], rfl⟩

/-- Settles O12. -/
theorem blockFunctionsRunSixtyFourRounds : Obligations.BlockFunctionsRunSixtyFourRounds := by
  unfold Obligations.BlockFunctionsRunSixtyFourRounds
  intro v0 v1 k
  rw [← initSum_eq]
  exact ⟨enc_rounds v0 v1 k, dec_rounds v0 v1 k⟩

/-! ### Decryption and encryption (R127) -/

@[simp] theorem blockHi_packBlock (v0 v1 : Word) : blockHi (packBlock v0 v1) = v0 := by
  obtain ⟨-, hhi, -⟩ := blockPackingIsHighLow.1 v0 v1
  exact hhi

@[simp] theorem blockLo_packBlock (v0 v1 : Word) : blockLo (packBlock v0 v1) = v1 := by
  obtain ⟨-, -, hlo⟩ := blockPackingIsHighLow.1 v0 v1
  exact hlo

theorem dec_enc (v0 v1 : Word) (k : Key) :
    dec (blockHi (enc v0 v1 k)) (blockLo (enc v0 v1 k)) k = packBlock v0 v1 := by
  obtain ⟨w0, w1, hrounds, henc⟩ := enc_rounds v0 v1 k
  have back : repeated (decRound k) rounds ⟨w0, w1, initSum⟩ = ⟨v0, v1, 0⟩ := by
    rw [← hrounds, repeated_leftInverse (decRound_encRound k)]
  rw [henc, blockHi_packBlock, blockLo_packBlock, dec, back]

theorem enc_dec (v0 v1 : Word) (k : Key) :
    enc (blockHi (dec v0 v1 k)) (blockLo (dec v0 v1 k)) k = packBlock v0 v1 := by
  obtain ⟨w0, w1, hrounds, hdec⟩ := dec_rounds v0 v1 k
  have back : repeated (encRound k) rounds ⟨w0, w1, 0⟩ = ⟨v0, v1, initSum⟩ := by
    rw [← hrounds, repeated_leftInverse (encRound_decRound k)]
  rw [hdec, blockHi_packBlock, blockLo_packBlock, enc, back]

/-- Settles O13: the 64 rounds undone from their end. -/
theorem decryptionInvertsEncryption : Obligations.DecryptionInvertsEncryption := by
  unfold Obligations.DecryptionInvertsEncryption
  exact fun v0 v1 k => ⟨dec_enc v0 v1 k, enc_dec v0 v1 k⟩

end Sys2Proof.Machine

/-! PROOF. ENCBLK and DECBLK (41_block_cipher.md R130, R131): the acceptance with the KVALID check (43_system.md R190),
the completion (R192), and the one after the other on the registers. -/

namespace Sys2Proof.Machine

theorem keyCheck_eq_none_iff (s : State) : keyCheck s = none ↔ s.kvalid = true := by
  cases h : s.kvalid <;> simp [keyCheck, h]

theorem keyCheck_eq_some_iff (s : State) (c : ErrCode) :
    keyCheck s = some c ↔ s.kvalid = false ∧ c = .noKey := by
  cases h : s.kvalid <;> simp [keyCheck, h, eq_comm]

/-- R190 steps 2, 4 and 5 for a command whose check is that of KVALID. -/
theorem exec_idle_of_keyCheck {i : Instr} {s : State} (hne : i ≠ .clrerr) (hb : s.busy = false)
    (hcheck : checkOf i s = keyCheck s) :
    exec i s = .next (if s.err ≠ 0 then s else if s.kvalid = false then { s with err := 4 } else latch i s) := by
  rw [exec_idle i s hne hb]
  rcases accept_cases i (checkOf i) s with ⟨herr, h⟩ | ⟨herr, c, hc, h⟩ | ⟨herr, hc, h⟩
  · rw [h, if_pos herr]
  · obtain ⟨hk, rfl⟩ := (keyCheck_eq_some_iff s c).mp (hcheck ▸ hc)
    rw [h, if_neg (not_not.mpr herr), if_pos hk]
    rfl
  · have hk : s.kvalid = true := (keyCheck_eq_none_iff s).mp (hcheck ▸ hc)
    rw [h, if_neg (not_not.mpr herr), if_neg (by simp [hk])]

theorem latch_encblk (s : State) :
    latch .encblk s = { s with op := 0x02, ctxl := 0, busy := true, done := false } := by
  obtain ⟨-, hopc, hctx⟩ := Laws.EncodingFields.encblk
  simp only [latch, hopc, hctx, Laws.EncodingFields.opcodeOf]

theorem latch_decblk (s : State) :
    latch .decblk s = { s with op := 0x03, ctxl := 0, busy := true, done := false } := by
  obtain ⟨-, hopc, hctx⟩ := Laws.EncodingFields.decblk
  simp only [latch, hopc, hctx, Laws.EncodingFields.opcodeOf]

theorem exec_encblk_completes {s : State} (hb : s.busy = true) (hop : s.op = 0x02) :
    exec .encblk s = .next (finish (encryptBlock s)) :=
  exec_completes .encblk s hb (inProgress_encblk s hop) rfl

theorem exec_decblk_completes {s : State} (hb : s.busy = true) (hop : s.op = 0x03) :
    exec .decblk s = .next (finish (decryptBlock s)) :=
  exec_completes .decblk s hb (inProgress_decblk s hop) rfl

/-- Settles O15: the word, the acceptance, the completion. -/
theorem encblkEncryptsV0V1 : Obligations.EncblkEncryptsV0V1 := by
  unfold Obligations.EncblkEncryptsV0V1
  refine ⟨by decide, fun s hb => ?acceptance, fun s hb hop => exec_encblk_completes hb hop⟩
  case acceptance =>
    rw [exec_idle_of_keyCheck (by decide) hb rfl, latch_encblk]

/-- Settles O16: the word, the acceptance, the completion. -/
theorem decblkDecryptsV0V1 : Obligations.DecblkDecryptsV0V1 := by
  unfold Obligations.DecblkDecryptsV0V1
  refine ⟨by decide, fun s hb => ?acceptance, fun s hb hop => exec_decblk_completes hb hop⟩
  case acceptance =>
    rw [exec_idle_of_keyCheck (by decide) hb rfl, latch_decblk]

/-- Settles O17: both complete, and RES holds `DEC` of the halves of `ENC`. -/
theorem decblkInvertsEncblk : Obligations.DecblkInvertsEncblk := by
  unfold Obligations.DecblkInvertsEncblk
  intro s u hsb hsop hub huop
  refine ⟨_, _, exec_encblk_completes hsb hsop, exec_decblk_completes hub huop, fun hv0 hv1 hkey => ?_⟩
  have hres : (finish (decryptBlock u)).res = packBlock s.v0 s.v1 := by
    calc dec u.v0 u.v1 u.key
        = dec (blockHi (enc s.v0 s.v1 s.key)) (blockLo (enc s.v0 s.v1 s.key)) s.key := by
          rw [hv0, hv1, hkey]; rfl
      _ = packBlock s.v0 s.v1 := dec_enc s.v0 s.v1 s.key
  rw [hres]
  exact ⟨blockHi_packBlock _ _, blockLo_packBlock _ _⟩

end Sys2Proof.Machine

/-! PROOF. The engine's schedule (41_block_cipher.md R129, 10_state.md R36, R37): the scratch registers inside a trip of
64 engine steps, what a whole trip does, and that the trips together are the pseudocode of the command. -/

namespace Sys2Proof.Machine

/-! ### A state with given scratch registers -/

/-- The state `v` with I = `j`, RND = `n` and the working registers at `r`. -/
def engineAt (j n : Nat) (r : RoundState) (v : State) : State :=
  { v with scratch := ⟨j, n, r.sum, r.v0, r.v1⟩ }

/-- Every state is of that form. -/
theorem eq_engineAt (s : State) :
    s = engineAt s.scratch.i s.scratch.rnd ⟨s.scratch.w0, s.scratch.w1, s.scratch.sum⟩ s := rfl

@[simp] theorem engineAt_scratch (j n : Nat) (r : RoundState) (v : State) :
    (engineAt j n r v).scratch = ⟨j, n, r.sum, r.v0, r.v1⟩ := rfl

@[simp] theorem finish_engineAt (j n : Nat) (r : RoundState) (v : State) : finish (engineAt j n r v) = finish v := rfl

@[simp] theorem nextIndex_engineAt (j n : Nat) (r : RoundState) (v : State) :
    nextIndex (engineAt j n r v) = engineAt (j + 1) 0 r v := rfl

theorem memRead_engineAt (sp : Space) (a b j n : Nat) (r : RoundState) (v : State) :
    memRead sp a b (engineAt j n r v) = memRead sp a b v :=
  memRead_congr sp a b v _ fun x _ _ => readByte_congr sp x v _ (by cases sp <;> rfl) rfl

theorem memWrite_engineAt (sp : Space) (a b w j n : Nat) (r : RoundState) (v : State) :
    memWrite sp a b w (engineAt j n r v) = engineAt j n r (memWrite sp a b w v) := by
  induction b generalizing a w v with
  | zero => rfl
  | succ b ih =>
    have byte (x : Byte) : writeByte sp a x (engineAt j n r v) = engineAt j n r (writeByte sp a x v) := by
      cases sp <;> rfl
    rw [memWrite, byte, ih, memWrite]

theorem pack32LE_engineAt (len off j n : Nat) (r : RoundState) (v : State) :
    pack32LE len off (engineAt j n r v) = pack32LE len off v := by
  simp only [pack32LE, txtByte, memRead_engineAt]

theorem blkEntry_engineAt (e j n : Nat) (r : RoundState) (v : State) :
    blkEntry e (engineAt j n r v) = blkEntry e v := by
  simp only [blkEntry, memRead_engineAt]

theorem setBlkEntry_engineAt (e : Nat) (b : Block) (j n : Nat) (r : RoundState) (v : State) :
    setBlkEntry e b (engineAt j n r v) = engineAt j n r (setBlkEntry e b v) :=
  memWrite_engineAt _ _ _ _ _ _ _ _

theorem outChunk_engineAt (sp : Space) (len off : Nat) (v0 v1 : Word) (j n : Nat) (r : RoundState) (v : State) :
    outChunk sp len off v0 v1 (engineAt j n r v) = engineAt j n r (outChunk sp len off v0 v1 v) := by
  unfold outChunk
  generalize 8 = m
  induction m with
  | zero => rfl
  | succ m ih =>
    rw [forUpTo, ih, forUpTo, outByte, outByte]
    split
    · exact memWrite_engineAt _ _ _ _ _ _ _ _
    · rfl

/-! ### One engine step -/

/-- What the command `i` loads at the start of trip `j` (R129; 42_container.md R154, R155); `r` is what the working
registers held. -/
def blockStart (i : Instr) (j : Nat) (r : RoundState) (v : State) : RoundState :=
  match i with
  | .kderive => r
  | .encblk => ⟨v.v0, v.v1, 0⟩
  | .decblk => ⟨v.v0, v.v1, initSum⟩
  | .make =>
    let off := scramble j v.bcnt.toNat * 8
    ⟨pack32LE v.clen.toNat off v, pack32LE v.clen.toNat (off + 4) v, 0⟩
  | .decrypt _ =>
    let b := blkEntry (scramble j v.bcnt.toNat) v
    ⟨blockHi b, blockLo b, initSum⟩
  | .clrerr => r

/-- The working registers after `n` rounds of trip `j`. -/
def blockRounds (i : Instr) (n j : Nat) (r : RoundState) (v : State) : RoundState :=
  repeated (engineRoundOf i (engineKey i v)) n (blockStart i j r v)

theorem engineFetch_engineAt (i : Instr) (j : Nat) (r : RoundState) (v : State) :
    engineFetch i (engineAt j 0 r v) = engineAt j 0 (blockStart i j r v) v := by
  cases i with
  | make => simp only [engineFetch, engineAt_scratch, pack32LE_engineAt]; rfl
  | decrypt c => simp only [engineFetch, engineAt_scratch, blkEntry_engineAt]; rfl
  | _ => rfl

theorem engineRound_engineAt (i : Instr) (j n : Nat) (r : RoundState) (v : State) :
    engineRound i (engineAt j n r v) = engineAt j (n + 1) (engineRoundOf i (engineKey i v) r) v := by
  cases i <;> rfl

/-- The first engine step of a trip loads the block and applies one round. -/
theorem engineTick_first (i : Instr) (j : Nat) (r : RoundState) (v : State) :
    engineTick i (engineAt j 0 r v) = engineAt j 1 (blockRounds i 1 j r v) v := by
  simp only [engineTick, engineAt_scratch, if_true, engineFetch_engineAt, engineRound_engineAt]
  rfl

/-- Any later engine step applies one round to the working registers; the 64th stores the block as well. -/
theorem engineTick_later (i : Instr) {j n : Nat} (r : RoundState) (v : State) (hn : 0 < n) :
    engineTick i (engineAt j n r v) =
      (let s1 := engineAt j (n + 1) (engineRoundOf i (engineKey i v) r) v
       if n + 1 = rounds then nextIndex (engineStore i s1) else s1) := by
  simp only [engineTick, engineAt_scratch, hn.ne', if_false, engineRound_engineAt]

/-- Inside a trip the scratch registers follow the rounds, and nothing else changes. -/
theorem engineTicks_inside (i : Instr) {n : Nat} (j : Nat) (r : RoundState) (v : State) (hpos : 0 < n)
    (hlt : n < rounds) : repeated (engineTick i) n (engineAt j 0 r v) = engineAt j n (blockRounds i n j r v) v := by
  induction n, hpos using Nat.le_induction with
  | base => exact engineTick_first i j r v
  | succ n hpos ih =>
    rw [repeated, ih (Nat.lt_of_succ_lt hlt), engineTick_later i _ v hpos]
    exact if_neg hlt.ne

/-- Settles O54: the inside of a trip of ENCBLK and of DECBLK. -/
theorem engineRoundsFollowTheCipher : Obligations.EngineRoundsFollowTheCipher := by
  unfold Obligations.EngineRoundsFollowTheCipher
  intro s n hpos hlt hrnd
  have inside (i : Instr) : (repeated (engineTick i) n s).scratch =
      (let r := blockRounds i n s.scratch.i ⟨s.scratch.w0, s.scratch.w1, s.scratch.sum⟩ s
       ⟨s.scratch.i, n, r.sum, r.v0, r.v1⟩) := by
    conv_lhs => rw [eq_engineAt s, hrnd, engineTicks_inside i _ _ s hpos hlt]
    rfl
  rw [← initSum_eq]
  exact ⟨inside .encblk, inside .decblk⟩

/-! ### A whole trip -/

/-- What trip `j` of the command `i` does to the block's state: one block through the cipher. -/
def tripBody (i : Instr) (j : Nat) (v : State) : State :=
  match i with
  | .kderive => v
  | .encblk => { v with res := enc v.v0 v.v1 v.key }
  | .decblk => { v with res := dec v.v0 v.v1 v.key }
  | .make => makeStep v.clen.toNat v.bcnt.toNat v.ckey j v
  | .decrypt c => decryptStep (outSpace c) v.clen.toNat v.bcnt.toNat v.ckey j v
  | .clrerr => v

/-- The block that the 64 rounds leave is stored where the pseudocode puts it. -/
theorem engineStore_engineAt (i : Instr) (j n : Nat) (r : RoundState) (v : State) :
    engineStore i (engineAt j n (blockRounds i rounds j r v) v) =
      engineAt j n (blockRounds i rounds j r v) (tripBody i j v) := by
  cases i with
  | make => exact setBlkEntry_engineAt _ _ _ _ _ _
  | decrypt c =>
    simp only [tripBody, decryptStep, dec, blockHi_packBlock, blockLo_packBlock]
    exact outChunk_engineAt _ _ _ _ _ _ _ _ _
  | _ => rfl

/-- 64 engine steps from RND = 0 are one trip: RND is 0 again and I one higher. -/
theorem engineTicks_trip (i : Instr) (j : Nat) (r : RoundState) (v : State) :
    repeated (engineTick i) rounds (engineAt j 0 r v) =
      engineAt (j + 1) 0 (blockRounds i rounds j r v) (tripBody i j v) := by
  have hrounds : rounds = 63 + 1 := rfl
  rw [← nextIndex_engineAt j rounds, ← engineStore_engineAt, hrounds, repeated,
    engineTicks_inside i j r v (by decide) (by decide), engineTick_later i _ v (by decide)]
  exact if_pos rfl

/-- `m` trips from I = 0 are the counted loop over the blocks (10_state.md R37). -/
theorem engineTicks_trips (i : Instr) (m : Nat) (r : RoundState) (v : State) :
    ∃ r', repeated (engineTick i) (rounds * m) (engineAt 0 0 r v) = engineAt m 0 r' (forUpTo (tripBody i) m v) := by
  induction m with
  | zero => exact ⟨r, rfl⟩
  | succ m ih =>
    obtain ⟨r', hr⟩ := ih
    refine ⟨blockRounds i rounds m r' (forUpTo (tripBody i) m v), ?_⟩
    calc repeated (engineTick i) (rounds * (m + 1)) (engineAt 0 0 r v)
        = repeated (engineTick i) rounds (repeated (engineTick i) (rounds * m) (engineAt 0 0 r v)) := by
          simp only [repeated_eq_iterate]
          rw [Nat.mul_succ, Nat.add_comm, Function.iterate_add_apply]
      _ = repeated (engineTick i) rounds (engineAt m 0 r' (forUpTo (tripBody i) m v)) := by rw [hr]
      _ = _ := engineTicks_trip i m r' _

/-! ### The trips of MAKE and DECRYPT are the loops of their pseudocode -/

theorem makeTrips_eq (m : Nat) (v : State) :
    forUpTo (tripBody .make) m v = forUpTo (makeStep v.clen.toNat v.bcnt.toNat v.ckey) m v := by
  induction m with
  | zero => simp only [forUpTo]
  | succ m ih =>
    have frame := makeLoop_eq v.clen.toNat v.bcnt.toNat v.ckey m v
    rw [forUpTo, ih, forUpTo, tripBody, congrArg State.clen frame, congrArg State.bcnt frame,
      congrArg State.ckey frame]

theorem decryptTrips_eq (c m : Nat) (v : State) :
    forUpTo (tripBody (.decrypt c)) m v =
      forUpTo (decryptStep (outSpace c) v.clen.toNat v.bcnt.toNat v.ckey) m v := by
  induction m with
  | zero => simp only [forUpTo]
  | succ m ih =>
    have frame := decryptLoop_eq (Fin.ofNat 16 c) v.clen.toNat v.bcnt.toNat v.ckey m v
    rw [forUpTo, ih, forUpTo, tripBody, outSpace, congrArg State.clen frame, congrArg State.bcnt frame,
      congrArg State.ckey frame]

/-! ### The whole run -/

/-- What a command does before its first block, the scratch registers apart. -/
def bodyStart (i : Instr) (s : State) : State :=
  match i with
  | .kderive => { s with key := keyDerive s.seed }
  | .encblk => s
  | .decblk => s
  | .make => openContainer s
  | .decrypt _ => s
  | .clrerr => s

theorem engineOpen_eq (i : Instr) (s : State) :
    ∃ r, engineOpen i s = engineAt 0 0 r (bodyStart i s) :=
  ⟨⟨s.scratch.w0, s.scratch.w1, s.scratch.sum⟩, by cases i <;> rfl⟩

theorem engineClose_engineAt (i : Instr) (j n : Nat) (r : RoundState) (v : State) :
    engineClose i (engineAt j n r v) = engineAt j n r (engineClose i v) := by
  cases i with
  | decrypt c => exact congrArg (setOvalid c) (memWrite_engineAt _ _ _ _ _ _ _ _)
  | _ => rfl

/-- BCNT holds the block count of every 32-bit length. -/
theorem bcnt_openContainer (s : State) : (openContainer s).bcnt.toNat = blockCount s.len.toNat := by
  have hlen := s.len.isLt
  rw [openContainer_bcnt, BitVec.toNat_ofNat, blockCount]
  omega

/-- The pseudocode of a command: what comes before its blocks, the blocks in order, what comes after. -/
theorem bodyOf_eq_trips (i : Instr) (s : State) :
    bodyOf i s = engineClose i (forUpTo (tripBody i) (engineTrips i s) (bodyStart i s)) := by
  cases i with
  | make =>
    have loop := makeTrips_eq (blockCount s.len.toNat) (openContainer s)
    rw [bcnt_openContainer] at loop
    exact congrArg validateContainer loop.symm
  | decrypt c =>
    have frame := decryptLoop_eq (Fin.ofNat 16 c) s.clen.toNat s.bcnt.toNat s.ckey s.bcnt.toNat s
    have loop := decryptTrips_eq c s.bcnt.toNat s
    simp only [bodyOf, decryptContainer, engineClose, engineTrips, bodyStart]
    rw [loop, outSpace, congrArg State.clen frame]
  | _ => rfl

/-- Settles O53: the trips are the pseudocode, and the completion forgets the scratch registers. -/
theorem engineScheduleRefinesCompletion : Obligations.EngineScheduleRefinesCompletion := by
  unfold Obligations.EngineScheduleRefinesCompletion
  intro i s t hb hi hexec
  obtain ⟨-, rfl⟩ := exec_inProgress i s t hb hi hexec
  obtain ⟨r, hopen⟩ := engineOpen_eq i s
  obtain ⟨r', hrun⟩ := engineTicks_trips i (engineTrips i s) r (bodyStart i s)
  rw [engineRun, hopen, hrun, engineClose_engineAt, finish_engineAt, bodyOf_eq_trips]

end Sys2Proof.Machine

/-! PROOF. Lengths and indices of the container (42_container.md R150 to R153): the block count band by band, the
scramble as a permutation or a collapse, the supported lengths. -/

namespace Sys2Proof.Machine

/-! ### The block count (R150) -/

theorem blockCount_eq_iff (n b : Nat) : blockCount n = b ↔ 8 * b ≤ n + 6 ∧ n ≤ 8 * b + 1 := by
  unfold blockCount
  omega

/-- A length that TXT holds has no more blocks than BLK (20_memory.md R60). -/
theorem blockCount_le_bmax {p : Params} {n : Nat} (hp : p.wf = true) (hn : n ≤ p.nmax) :
    blockCount n ≤ p.bmax := by
  obtain ⟨hmul, -, -⟩ := Params.bounds_of_wf hp
  unfold blockCount Params.bmax
  omega

/-- Every text position lies in a chunk below the block count. -/
theorem div_lt_blockCount {n p : Nat} (hp : p < n - 1) : p / 8 < blockCount n := by
  unfold blockCount
  omega

theorem scramble_lt {i bc : Nat} (hbc : 0 < bc) : scramble i bc < bc := Nat.mod_lt _ hbc

/-- Settles O18. -/
theorem blockCountBands : Obligations.BlockCountBands := by
  unfold Obligations.BlockCountBands
  refine ⟨fun n b hn => ⟨?_, blockCount_eq_iff n b⟩, fun p n i hp _ hmax hi => ?_⟩
  · unfold blockCount
    omega
  · obtain ⟨-, hnmax, -⟩ := Params.bounds_of_wf hp
    have hbc : blockCount n ≤ 512 := by
      have hle := blockCount_le_bmax hp hmax
      unfold Params.bmax at hle
      omega
    have hidx := scramble_lt (i := i) (Nat.zero_lt_of_lt hi)
    omega

/-! ### The scramble (R151, R152) -/

/-- Index `j` is visited: the loop over a container of `bc` blocks comes to it. -/
abbrev Visited (bc j : Nat) : Prop := ∃ i < bc, scramble i bc = j

/-- 5 is prime, so it is coprime to every block count that is no multiple of 5. -/
theorem coprime_five {bc : Nat} (h : bc % 5 ≠ 0) : Nat.Coprime 5 bc :=
  (Nat.prime_five.coprime_iff_not_dvd).mpr fun hdvd => h (Nat.mod_eq_zero_of_dvd hdvd)

/-- Multiplication by 5 cancels modulo a coprime block count. -/
theorem scramble_injective {bc i j : Nat} (h : bc % 5 ≠ 0) (hi : i < bc) (hj : j < bc)
    (hij : scramble i bc = scramble j bc) : i = j :=
  (Nat.ModEq.cancel_right_of_coprime (coprime_five h).symm hij).eq_of_lt_of_lt hi hj

theorem visited_of_not_five_dvd {bc j : Nat} (h : bc % 5 ≠ 0) (hj : j < bc) : Visited bc j := by
  obtain ⟨i, hi, hmod⟩ := Nat.exists_mul_mod_eq_of_coprime j (coprime_five h) (Nat.ne_zero_of_lt hj)
  refine ⟨i, hi, ?_⟩
  rw [scramble, Nat.mul_comm, hmod, Nat.mod_eq_of_lt hj]

/-- Below a multiple `5 * q` the scramble is 5 times the remainder by `q`. -/
theorem scramble_five_mul (i q : Nat) : scramble i (5 * q) = 5 * (i % q) := by
  rw [scramble, Nat.mul_comm, Nat.mul_mod_mul_left]

/-- A block count that is a multiple of 5: the visited indices are the multiples of 5 below it. -/
theorem visited_iff_five_dvd {bc : Nat} (hbc : 0 < bc) (h : bc % 5 = 0) (j : Nat) :
    Visited bc j ↔ j < bc ∧ j % 5 = 0 := by
  obtain ⟨q, rfl⟩ := Nat.dvd_of_mod_eq_zero h
  simp only [Visited, scramble_five_mul]
  constructor
  · rintro ⟨i, -, rfl⟩
    have hmod : i % q < q := Nat.mod_lt i (Nat.pos_of_mul_pos_left hbc)
    omega
  · rintro ⟨hj, hj5⟩
    refine ⟨j / 5, by omega, ?_⟩
    rw [Nat.mod_eq_of_lt (by omega)]
    omega

/-- The collapse hits each multiple of 5 once per remainder class, five times in all. -/
theorem count_scramble_five_mul {q : Nat} (hq : 0 < q) (j : Nat) :
    ((List.range (5 * q)).filter fun i => decide (scramble i (5 * q) = j)).length =
      if j < 5 * q ∧ j % 5 = 0 then 5 else 0 := by
  rw [← List.countP_eq_length_filter]
  split
  · next hj =>
    have hclass (i : Nat) : scramble i (5 * q) = j ↔ i ≡ j / 5 [MOD q] := by
      have hjq : j / 5 % q = j / 5 := Nat.mod_eq_of_lt (by omega)
      rw [scramble_five_mul, Nat.ModEq, hjq]
      omega
    have hcount := Nat.count_modEq_card (5 * q) hq (j / 5)
    simpa [Nat.count, hclass, hq] using hcount
  · next hj =>
    refine List.countP_eq_zero.mpr fun i _ hi => hj ?_
    have hmod : i % q < q := Nat.mod_lt i hq
    simp only [scramble_five_mul, decide_eq_true_eq] at hi
    omega

/-- Settles O19: 0 and `bc / 5` collide if the block count is a multiple of 5. -/
theorem scrambleIsBijectiveUnlessMultipleOfFive : Obligations.ScrambleIsBijectiveUnlessMultipleOfFive := by
  unfold Obligations.ScrambleIsBijectiveUnlessMultipleOfFive
  refine ⟨fun bc hbc => ⟨?_, fun h => ?_⟩, fun bc hbc h j => ?_, by decide, by decide⟩
  · rintro ⟨-, injective, -⟩ h
    obtain ⟨q, rfl⟩ := Nat.dvd_of_mod_eq_zero h
    have collision := injective 0 hbc q (by omega) (by simp [scramble_five_mul])
    omega
  · exact ⟨fun i _ => scramble_lt hbc, fun i hi j hj => scramble_injective h hi hj,
      fun j hj => visited_of_not_five_dvd h hj⟩
  · obtain ⟨q, rfl⟩ := Nat.dvd_of_mod_eq_zero h
    exact count_scramble_five_mul (Nat.pos_of_mul_pos_left hbc) j

/-! ### The supported lengths (R153) -/

theorem supported_iff (p : Params) (n : Nat) :
    supported p n = true ↔
      1 ≤ n ∧ n ≤ p.nmax ∧ (p.guard5 = false ∨ blockCount n = 0 ∨ blockCount n % 5 ≠ 0) := by
  simp [supported, and_assoc, or_assoc]

/-- The block counts that the guard excludes are the bands `[40m - 6, 40m + 1]`. -/
theorem blockCount_band_iff (n : Nat) :
    (blockCount n = 0 ∨ blockCount n % 5 ≠ 0) ↔ ¬ ∃ m : Nat, 1 ≤ m ∧ 40 * m ≤ n + 6 ∧ n ≤ 40 * m + 1 := by
  unfold blockCount
  constructor
  · rintro h ⟨m, hm⟩
    omega
  · intro h
    by_contra hband
    exact h ⟨(n + 6) / 40, by omega⟩

end Sys2Proof.Machine

/-! PROOF. MAKE (42_container.md R154, R156): its acceptance with the length check, the loop entry by entry, then the
container it leaves for a bijective and for a collapsing scramble. -/

namespace Sys2Proof.Machine

/-! ### Acceptance (43_system.md R190) -/

/-- R190 step 2: a pending ERR ends the sequence silently. -/
theorem exec_idle_of_err {i : Instr} {s : State} (hne : i ≠ .clrerr) (hb : s.busy = false) (herr : s.err ≠ 0) :
    exec i s = .next s := by
  rw [exec_idle i s hne hb, accept, if_pos herr]

/-- R190 step 4: what the command's own check finds is recorded. -/
theorem exec_idle_of_check_some {i : Instr} {s : State} {c : ErrCode} (hne : i ≠ .clrerr) (hb : s.busy = false)
    (herr : s.err = 0) (hcheck : checkOf i s = some c) : exec i s = .next { s with err := c.code } := by
  rw [exec_idle i s hne hb]
  rcases accept_cases i (checkOf i) s with ⟨hpending, -⟩ | ⟨-, c', hc, h⟩ | ⟨-, hc, -⟩
  · exact absurd herr hpending
  · obtain rfl := Option.some.inj (hcheck.symm.trans hc)
    rw [h]
  · rw [hcheck] at hc
    cases hc

theorem latch_make (s : State) :
    latch .make s = { s with op := 0x04, ctxl := 0, busy := true, done := false } := by
  obtain ⟨-, hopc, hctx⟩ := Laws.EncodingFields.make
  simp only [latch, hopc, hctx, Laws.EncodingFields.opcodeOf]

/-- R190 steps 2, 4 and 5 for MAKE. -/
theorem exec_make_idle {s : State} (hb : s.busy = false) :
    exec .make s = .next
      (if s.err ≠ 0 then s
       else if supported s.params s.len.toNat = false then { s with err := 3 }
       else { s with op := 0x04, ctxl := 0, busy := true, done := false }) := by
  have hne : Instr.make ≠ .clrerr := by decide
  by_cases herr : s.err = 0
  · rw [if_neg (not_not.mpr herr)]
    by_cases hlen : supported s.params s.len.toNat = false
    · rw [if_pos hlen]
      exact exec_idle_of_check_some (c := .len) hne hb herr (by simp [checkOf, lengthCheck, hlen])
    · have hcheck : checkOf .make s = none := by simpa [checkOf, lengthCheck] using hlen
      rw [if_neg hlen, exec_idle_of_check_none hne hb hcheck, if_pos herr, latch_make]
  · rw [if_pos herr, exec_idle_of_err hne hb herr]

/-- Settles O20: the bands are the multiples of 5 among the block counts, and MAKE's check is `Supported(LEN)`. -/
theorem supportedLengthsSkipTheBands : Obligations.SupportedLengthsSkipTheBands := by
  unfold Obligations.SupportedLengthsSkipTheBands
  refine ⟨fun p n => ?_, fun s hb herr => ?_⟩
  · rw [supported_iff, blockCount_band_iff]
  · rw [exec_make_idle hb, if_neg (not_not.mpr herr)]
    cases supported s.params s.len.toNat <;> rfl

/-! ### Entries and chunks -/

/-- An entry is what its eight bytes are. -/
theorem blkEntry_eq_iff (j : Nat) (s t : State) :
    blkEntry j t = blkEntry j s ↔ ∀ a, a / 8 = j → readByte .blk a t = readByte .blk a s := by
  have toNat_blkEntry (u : State) : (blkEntry j u).toNat = memRead .blk (8 * j) 8 u := by
    have hlt := memRead_lt .blk (8 * j) 8 u
    rw [blkEntry, BitVec.toNat_ofNat]
    omega
  constructor
  · rintro h a rfl
    have hnum := congrArg BitVec.toNat h
    rw [toNat_blkEntry, toNat_blkEntry] at hnum
    have hdigit (u : State) := memRead_digit .blk (a := 8 * (a / 8)) u (Nat.mod_lt a (by decide : 8 > 0))
    have ht := hdigit t
    rw [hnum, hdigit s, Nat.div_add_mod] at ht
    exact ht.symm
  · intro h
    rw [blkEntry, blkEntry, memRead_congr .blk (8 * j) 8 s t fun a h1 h2 => h a (by omega)]

@[simp] theorem blkEntry_setBlkEntry_same (j : Nat) (b : Block) (s : State) :
    blkEntry j (setBlkEntry j b s) = b := by
  have hfits : b.toNat < 256 ^ 8 := b.isLt
  rw [blkEntry, setBlkEntry, memRead_memWrite_same, Nat.mod_eq_of_lt hfits, BitVec.ofNat_toNat, BitVec.setWidth_eq]

theorem blkEntry_setBlkEntry_other {i j : Nat} (b : Block) (s : State) (h : j ≠ i) :
    blkEntry j (setBlkEntry i b s) = blkEntry j s :=
  (blkEntry_eq_iff j s _).mpr fun a ha => readByte_memWrite_outside _ _ _ _ _ _ (by omega)

/-- A chunk word is a function of the text below `n - 1` (20_memory.md R65). -/
theorem pack32LE_congr (n off : Nat) {s t : State}
    (h : ∀ p < n - 1, readByte .txt p t = readByte .txt p s) : pack32LE n off t = pack32LE n off s := by
  have hbyte (p : Nat) : txtByte n p t = txtByte n p s := by
    rw [txtByte_eq, txtByte_eq]
    split
    · next hp => rw [h p hp]
    · rfl
  simp only [pack32LE, hbyte]

/-- What MAKE stores for chunk `j`: the encryption of its two words (42_container.md R159). -/
def sealedChunk (n : Nat) (k : Key) (j : Nat) (s : State) : Block :=
  enc (pack32LE n (8 * j) s) (pack32LE n (8 * j + 4) s) k

theorem sealedChunk_congr (n : Nat) (k : Key) (j : Nat) {s t : State}
    (h : ∀ p < n - 1, readByte .txt p t = readByte .txt p s) : sealedChunk n k j t = sealedChunk n k j s := by
  rw [sealedChunk, sealedChunk, pack32LE_congr n _ h, pack32LE_congr n _ h]

/-! ### The loop of MAKE (R154) -/

/-- One trip seals the chunk at the scrambled index. -/
theorem makeStep_eq (n bc : Nat) (k : Key) (i : Nat) (s : State) :
    makeStep n bc k i s = setBlkEntry (scramble i bc) (sealedChunk n k (scramble i bc) s) s := by
  rw [sealedChunk, Nat.mul_comm 8]
  rfl

/-- The loop leaves the text. -/
theorem readByte_txt_makeLoop (n bc : Nat) (k : Key) (m p : Nat) (s : State) :
    readByte .txt p (forUpTo (makeStep n bc k) m s) = readByte .txt p s := by
  rw [makeLoop_eq]
  rfl

/-- After `m` trips exactly the entries they came to hold their sealed chunks. A later trip to the same entry stores
the same block again, because the text stays. -/
theorem blkEntry_makeLoop (n bc : Nat) (k : Key) (m j : Nat) (s : State) :
    blkEntry j (forUpTo (makeStep n bc k) m s) =
      if ∃ i < m, scramble i bc = j then sealedChunk n k j s else blkEntry j s := by
  induction m with
  | zero => rw [if_neg (by simp)]; rfl
  | succ m ih =>
    rw [forUpTo, makeStep_eq, sealedChunk_congr n k _ fun p _ => readByte_txt_makeLoop n bc k m p s]
    by_cases hm : scramble m bc = j
    · rw [hm, blkEntry_setBlkEntry_same, if_pos ⟨m, Nat.lt_succ_self m, hm⟩]
    · rw [blkEntry_setBlkEntry_other _ _ (Ne.symm hm), ih]
      simp only [Nat.exists_lt_succ_right, hm, or_false]

/-! ### The completion of MAKE (R156) -/

/-- The state that a completed MAKE leaves. -/
def madeFrom (s : State) : State := finish (buildContainer s)

/-- Every field of the state a MAKE leaves, BLK apart. -/
theorem madeFrom_eq (s : State) :
    madeFrom s =
      { s with
        ckey := keyDerive s.seed, clen := s.len, bcnt := BitVec.ofNat 32 (blockCount s.len.toNat)
        blk := (madeFrom s).blk, cvalid := true, busy := false, done := true
        scratch := Scratch.idle s.draws, draws := s.draws + 1 } := by
  unfold madeFrom
  rw [buildContainer_eq]
  rfl

theorem exec_make_completes {s : State} (hb : s.busy = true) (hop : s.op = 0x04) (hp : s.params.wf = true)
    (hpos : 1 ≤ s.len.toNat) (hmax : s.len.toNat ≤ s.params.nmax) : exec .make s = .next (madeFrom s) := by
  refine exec_completes .make s hb (inProgress_make s hop) ?_
  simp [fitsOf, makeFits, hpos, hmax, blockCount_le_bmax hp hmax]

/-- A supported length completes. -/
theorem exec_make_completes_of_supported {s : State} (hb : s.busy = true) (hop : s.op = 0x04)
    (hp : s.params.wf = true) (hlen : supported s.params s.len.toNat = true) :
    exec .make s = .next (madeFrom s) := by
  obtain ⟨hpos, hmax, -⟩ := (supported_iff _ _).mp hlen
  exact exec_make_completes hb hop hp hpos hmax

/-- The entries of BLK after a MAKE: a visited one is its own chunk sealed under the new CKEY, any other is as
before. -/
theorem blkEntry_madeFrom (j : Nat) (s : State) :
    blkEntry j (madeFrom s) =
      if Visited (blockCount s.len.toNat) j then sealedChunk s.len.toNat (keyDerive s.seed) j s
      else blkEntry j s :=
  blkEntry_makeLoop s.len.toNat _ (keyDerive s.seed) _ j (openContainer s)

theorem blkEntry_madeFrom_of_visited {j : Nat} {s : State} (h : Visited (blockCount s.len.toNat) j) :
    blkEntry j (madeFrom s) = sealedChunk s.len.toNat (keyDerive s.seed) j s := by
  rw [blkEntry_madeFrom, if_pos h]

theorem blkEntry_madeFrom_of_not_visited {j : Nat} {s : State} (h : ¬ Visited (blockCount s.len.toNat) j) :
    blkEntry j (madeFrom s) = blkEntry j s := by
  rw [blkEntry_madeFrom, if_neg h]

/-- Settles O21: the word, the acceptance, and the completion memory by memory. -/
theorem makeBuildsTheContainer : Obligations.MakeBuildsTheContainer := by
  unfold Obligations.MakeBuildsTheContainer
  refine ⟨by decide, fun s hb => exec_make_idle hb, fun s hb hop hp hpos hmax => ?completion⟩
  case completion =>
    refine ⟨madeFrom s, exec_make_completes hb hop hp hpos hmax, madeFrom_eq s, ?visited, ?unvisited, ?txt, ?out⟩
    case visited => exact fun i hi j hj => blkEntry_madeFrom_of_visited ⟨i, hi, hj.symm⟩
    case unvisited =>
      exact fun a ha => (blkEntry_eq_iff _ _ _).mp (blkEntry_madeFrom_of_not_visited ha) a rfl
    case txt => exact fun a => by rw [madeFrom_eq]; rfl
    case out => exact fun c a => by rw [madeFrom_eq]; rfl

/-! ### A bijective scramble (R159, R162) -/

/-- The block count is no positive multiple of 5: MAKE seals every chunk into the entry of its own index. -/
theorem blkEntry_madeFrom_of_bijective {s : State}
    (h : blockCount s.len.toNat % 5 ≠ 0 ∨ blockCount s.len.toNat = 0) {j : Nat} (hj : j < blockCount s.len.toNat) :
    blkEntry j (madeFrom s) = sealedChunk s.len.toNat (keyDerive s.seed) j s :=
  blkEntry_madeFrom_of_visited (visited_of_not_five_dvd (by omega) hj)

theorem madeFrom_ckey (s : State) : (madeFrom s).ckey = keyDerive s.seed := by rw [madeFrom_eq]

/-- Settles O22. -/
theorem everyEntryEncryptsItsOwnChunk : Obligations.EveryEntryEncryptsItsOwnChunk := by
  unfold Obligations.EveryEntryEncryptsItsOwnChunk
  intro s hb hop hp hlen hbij
  refine ⟨madeFrom s, exec_make_completes_of_supported hb hop hp hlen, fun j hj => ?_⟩
  rw [madeFrom_ckey]
  exact blkEntry_madeFrom_of_bijective hbij hj

/-- Settles O26: every part of the container is a function of LEN, SEED and the text. -/
theorem makeIsDeterministic : Obligations.MakeIsDeterministic := by
  unfold Obligations.MakeIsDeterministic
  intro s u hsp hup hsb hsop hslen hub huop hulen hlen hseed htxt hbij
  refine ⟨madeFrom s, madeFrom u, exec_make_completes_of_supported hsb hsop hsp hslen,
    exec_make_completes_of_supported hub huop hup hulen, ?clen, ?bcnt, ?ckey, fun j hj => ?entry⟩
  case clen => rw [madeFrom_eq, madeFrom_eq u]; exact hlen
  case bcnt => rw [madeFrom_eq, madeFrom_eq u, hlen]
  case ckey => rw [madeFrom_ckey, madeFrom_ckey, hseed]
  case entry =>
    calc blkEntry j (madeFrom s)
        = sealedChunk s.len.toNat (keyDerive s.seed) j s := blkEntry_madeFrom_of_bijective hbij hj
      _ = sealedChunk s.len.toNat (keyDerive s.seed) j u := sealedChunk_congr _ _ _ htxt
      _ = sealedChunk u.len.toNat (keyDerive u.seed) j u := by rw [hlen, hseed]
      _ = blkEntry j (madeFrom u) :=
        (blkEntry_madeFrom_of_bijective (hlen ▸ hbij) (hlen ▸ hj)).symm

end Sys2Proof.Machine

/-! PROOF. DECRYPT (42_container.md R155, R157): its acceptance with the checks of context and container, the view it
writes byte by byte, then the round trip through MAKE and the collapse. -/

namespace Sys2Proof.Machine

/-! ### Acceptance (43_system.md R190) -/

theorem latch_decrypt (c : Nat) (s : State) :
    latch (.decrypt c) s = { s with op := 0x05, ctxl := BitVec.ofNat 4 c, busy := true, done := false } := by
  obtain ⟨-, hopc, hctx⟩ := Laws.EncodingFields.decrypt c
  simp only [latch, hopc, hctx, Laws.EncodingFields.opcodeOf]

/-- R190 steps 2, 4 and 5 for DECRYPT: the context is tested before the container. -/
theorem exec_decrypt_idle (c : Nat) {s : State} (hb : s.busy = false) :
    exec (.decrypt c) s = .next
      (if s.err ≠ 0 then s
       else if c ≥ s.params.nctx then { s with err := 6 }
       else if s.cvalid = false then { s with err := 5 }
       else { s with op := 0x05, ctxl := BitVec.ofNat 4 c, busy := true, done := false }) := by
  have hne : Instr.decrypt c ≠ .clrerr := by simp
  by_cases herr : s.err = 0
  · rw [if_neg (not_not.mpr herr)]
    by_cases hc : c ≥ s.params.nctx
    · rw [if_pos hc]
      exact exec_idle_of_check_some hne hb herr (if_pos hc)
    rw [if_neg hc]
    by_cases hvalid : s.cvalid = false
    · rw [if_pos hvalid]
      exact exec_idle_of_check_some (c := .noCont) hne hb herr (by simp [checkOf, containerCheck, hc, hvalid])
    · have hcheck : checkOf (.decrypt c) s = none := by simpa [checkOf, containerCheck, hc] using hvalid
      rw [if_neg hvalid, exec_idle_of_check_none hne hb hcheck, if_pos herr, latch_decrypt]
  · rw [if_pos herr, exec_idle_of_err hne hb herr]

/-- The word of DECRYPT: the context number stands from bit 8 on (30_encoding.md R91, R92). -/
theorem encode_decrypt {c : Nat} (hc : c < 16) :
    encode (.decrypt c) = BitVec.ofNat 32 (0x00000005 + c * 0x100) := by
  have hctx : (BitVec.ofNat 4 c).toNat = c := Nat.mod_eq_of_lt hc
  rw [encode, formatC, hctx, Nat.add_comm]
  rfl

/-! ### Chunks of the view (20_memory.md R66) -/

/-- Byte `q` of a chunk: the low four from its high word, the others from its low word. -/
def chunkByte (r : Block) (q : Nat) : Byte :=
  if q < 4 then (blockHi r >>> (8 * q)).setWidth 8 else (blockLo r >>> (8 * (q - 4))).setWidth 8

/-- The text chunk that entry `j` holds under the key `k`. -/
def openedChunk (k : Key) (j : Nat) (s : State) : Block :=
  dec (blockHi (blkEntry j s)) (blockLo (blkEntry j s)) k

theorem openedChunk_congr (k : Key) {j : Nat} {s t : State} (h : blkEntry j t = blkEntry j s) :
    openedChunk k j t = openedChunk k j s := by
  rw [openedChunk, openedChunk, h]

/-- A sealed chunk opens to its own two words under the same key (41_block_cipher.md R127). -/
theorem openedChunk_of_sealed {n : Nat} {k : Key} {j : Nat} {s u : State}
    (h : blkEntry j u = sealedChunk n k j s) :
    openedChunk k j u = packBlock (pack32LE n (8 * j) s) (pack32LE n (8 * j + 4) s) := by
  rw [openedChunk, h, sealedChunk, dec_enc]

/-- Byte `p % 8` of the packed chunk `p / 8` is the text byte at `p`. -/
theorem chunkByte_packed {n p : Nat} (s : State) (hp : p < n - 1) :
    chunkByte (packBlock (pack32LE n (8 * (p / 8)) s) (pack32LE n (8 * (p / 8) + 4) s)) (p % 8) =
      readByte .txt p s := by
  have hword (off q : Nat) (hq : q < 4) (hoff : off + q = p) :
      (pack32LE n off s >>> (8 * q)).setWidth 8 = readByte .txt p s := by
    rw [chunkWordsAreLittleEndianAndPadded n off q s hq, hoff, if_pos hp]
  rw [chunkByte, blockHi_packBlock, blockLo_packBlock]
  split
  · exact hword _ _ (by omega) (by omega)
  · exact hword _ _ (by omega) (by omega)

/-! ### The loop of DECRYPT (R155) -/

/-- One trip opens the entry at the scrambled index into the positions of its chunk below `n - 1`. -/
theorem readByte_decryptStep (c : Fin 16) (n bc : Nat) (k : Key) (i p : Nat) (s : State) :
    readByte (.out c) p (decryptStep (.out c) n bc k i s) =
      if scramble i bc = p / 8 ∧ p < n - 1 then chunkByte (openedChunk k (p / 8) s) (p % 8)
      else readByte (.out c) p s := by
  obtain ⟨written, -⟩ := outChunkUnpacksLittleEndian c n (scramble i bc * 8)
    (blockHi (openedChunk k (scramble i bc) s)) (blockLo (openedChunk k (scramble i bc) s)) s
  refine (written p).trans ?_
  by_cases hidx : scramble i bc = p / 8
  · have hchunk : (p / 8 * 8 ≤ p ∧ p < p / 8 * 8 + 8 ∧ p < n - 1) ↔ p < n - 1 := by omega
    have hpos : p - p / 8 * 8 = p % 8 := by omega
    simp only [hidx, hchunk, hpos, chunkByte, true_and]
  · rw [if_neg (by omega), if_neg (by simp [hidx])]

/-- The loop leaves BLK. -/
theorem blkEntry_decryptLoop (c : Fin 16) (n bc : Nat) (k : Key) (m j : Nat) (s : State) :
    blkEntry j (forUpTo (decryptStep (.out c) n bc k) m s) = blkEntry j s := by
  refine (blkEntry_eq_iff j s _).mpr fun a _ => ?_
  rw [decryptLoop_eq]
  rfl

/-- After `m` trips exactly the positions below `n - 1` in the chunks they came to hold their text bytes. -/
theorem readByte_decryptLoop (c : Fin 16) (n bc : Nat) (k : Key) (m p : Nat) (s : State) :
    readByte (.out c) p (forUpTo (decryptStep (.out c) n bc k) m s) =
      if p < n - 1 ∧ ∃ i < m, scramble i bc = p / 8 then chunkByte (openedChunk k (p / 8) s) (p % 8)
      else readByte (.out c) p s := by
  induction m with
  | zero => rw [if_neg (by simp)]; rfl
  | succ m ih =>
    rw [forUpTo, readByte_decryptStep, openedChunk_congr k (blkEntry_decryptLoop c n bc k m (p / 8) s), ih]
    by_cases hm : scramble m bc = p / 8
    · by_cases hp : p < n - 1
      · rw [if_pos ⟨hm, hp⟩, if_pos ⟨hp, m, Nat.lt_succ_self m, hm⟩]
      · simp only [hp, false_and, and_false, if_false]
    · simp only [Nat.exists_lt_succ_right, hm, or_false, false_and, if_false]

/-! ### The completion of DECRYPT (R157) -/

/-- The state that a completed DECRYPT into context `c` leaves. -/
def viewedFrom (c : Nat) (s : State) : State := finish (decryptContainer c s)

/-- Every field of the state a DECRYPT leaves, OUT apart. -/
theorem viewedFrom_eq (c : Nat) (s : State) :
    viewedFrom c s =
      { s with
        out := (viewedFrom c s).out, ovalid := s.ovalid ||| (1#16 <<< c), busy := false, done := true
        scratch := Scratch.idle s.draws, draws := s.draws + 1 } := by
  unfold viewedFrom
  rw [decryptContainer_eq]
  rfl

theorem exec_decrypt_completes {c : Nat} {s : State} (hb : s.busy = true) (hop : s.op = 0x05)
    (hctx : s.ctxl.toNat = c) (hc : c < s.params.nctx) (hpos : 1 ≤ s.clen.toNat)
    (hmax : s.clen.toNat ≤ s.params.nmax) (hbcnt : s.bcnt.toNat ≤ s.params.bmax) :
    exec (.decrypt c) s = .next (viewedFrom c s) := by
  refine exec_completes (.decrypt c) s hb (hctx ▸ inProgress_decrypt s hop) ?_
  simp [fitsOf, decryptFits, hc, hpos, hmax, hbcnt]

/-- A context that is latched is its own buffer: CTXL is below 16. -/
theorem viewedFrom_out_other {c : Nat} (hc : c < 16) (s : State) (d : Fin 16) (hd : d.val ≠ c) :
    (viewedFrom c s).out[d.val] = s.out[d.val] :=
  decryptContainer_out_other c s d (by rwa [Nat.mod_eq_of_lt hc])

/-- The buffer after a DECRYPT: the terminator, the text positions of the visited chunks, and the rest as before. -/
theorem readByte_viewedFrom (c p : Nat) (s : State) :
    readByte (outSpace c) p (viewedFrom c s) =
      if p = s.clen.toNat - 1 then 0
      else if p < s.clen.toNat - 1 ∧ Visited s.bcnt.toNat (p / 8) then
        chunkByte (openedChunk s.ckey (p / 8) s) (p % 8)
      else readByte (outSpace c) p s := by
  have loop := readByte_decryptLoop (Fin.ofNat 16 c) s.clen.toNat s.bcnt.toNat s.ckey s.bcnt.toNat p s
  have close (t : State) : readByte (outSpace c) p (finish (closeView c s.clen.toNat t)) =
      readByte (outSpace c) p (writeByte (outSpace c) (s.clen.toNat - 1) 0 t) := rfl
  rw [viewedFrom, decryptContainer, close]
  split
  · next hp => rw [hp, readByte_writeByte_same]
  · next hp => rw [readByte_writeByte_addr _ _ _ _ _ hp]; exact loop

/-- The terminator. -/
theorem readByte_viewedFrom_last (c : Nat) (s : State) :
    readByte (outSpace c) (s.clen.toNat - 1) (viewedFrom c s) = 0 := by
  rw [readByte_viewedFrom, if_pos rfl]

/-- Settles O24: the words, the acceptance, and the completion memory by memory. -/
theorem decryptWritesTheView : Obligations.DecryptWritesTheView := by
  unfold Obligations.DecryptWritesTheView
  refine ⟨fun c hc => encode_decrypt hc, fun s c _ hb => exec_decrypt_idle c hb,
    fun s c hb hop hctx hc hpos hmax hbcnt => ?completion⟩
  case completion =>
    have hc16 : c < 16 := hctx ▸ s.ctxl.isLt
    refine ⟨viewedFrom c s, exec_decrypt_completes hb hop hctx hc hpos hmax hbcnt, viewedFrom_eq c s,
      viewedFrom_out_other hc16 s, fun p => readByte_viewedFrom c p s, ?txt, ?blk, ?otherContexts⟩
    case txt => exact fun a => by rw [viewedFrom_eq]; rfl
    case blk => exact fun a => by rw [viewedFrom_eq]; rfl
    case otherContexts =>
      intro d a hd
      refine readByte_congr (.out d) a s _ (viewedFrom_out_other hc16 s d hd) ?_
      rw [viewedFrom_eq]

/-! ### The round trip (R161) -/

/-- A DECRYPT that finds a MAKE's container: its registers and the entries below the block count. -/
theorem readByte_viewedFrom_made (c : Nat) {s u : State} {p : Nat}
    (hbij : blockCount s.len.toNat % 5 ≠ 0 ∨ blockCount s.len.toNat = 0)
    (hclen : u.clen = s.len) (hbcnt : u.bcnt.toNat = blockCount s.len.toNat) (hckey : u.ckey = keyDerive s.seed)
    (hblk : ∀ j < blockCount s.len.toNat, blkEntry j u = blkEntry j (madeFrom s)) (hp : p < s.len.toNat - 1) :
    readByte (outSpace c) p (viewedFrom c u) = readByte .txt p s := by
  have hchunk : p / 8 < blockCount s.len.toNat := div_lt_blockCount hp
  have hvisited : Visited (blockCount s.len.toNat) (p / 8) := visited_of_not_five_dvd (by omega) hchunk
  have hentry := (hblk _ hchunk).trans (blkEntry_madeFrom_of_bijective hbij hchunk)
  rw [readByte_viewedFrom, hclen, hbcnt, if_neg hp.ne, if_pos ⟨hp, hvisited⟩, hckey, openedChunk_of_sealed hentry,
    chunkByte_packed s hp]

/-- Settles O25. -/
theorem endToEndRoundTrip : Obligations.EndToEndRoundTrip := by
  unfold Obligations.EndToEndRoundTrip
  intro s u hp hsb hsop hlen hbij hub huop hparams hctx
  refine ⟨madeFrom s, exec_make_completes_of_supported hsb hsop hp hlen, fun hclen hbcnt hckey hblk => ?_⟩
  have hclen : u.clen = s.len := hclen.trans (congrArg State.clen (madeFrom_eq s))
  have hbcnt : u.bcnt.toNat = blockCount s.len.toNat := by
    rw [hbcnt, madeFrom_eq]
    exact blockCount_fits hp hlen
  have hckey : u.ckey = keyDerive s.seed := hckey.trans (madeFrom_ckey s)
  have hentries (j : Nat) : blkEntry j u = blkEntry j (madeFrom s) :=
    (blkEntry_eq_iff j _ u).mpr fun a _ => hblk a
  obtain ⟨hpos, hmax, -⟩ := (supported_iff _ _).mp hlen
  refine ⟨viewedFrom u.ctxl.toNat u, ?completes, ?text, ?terminator⟩
  case completes =>
    rw [← hparams] at hctx hmax hp
    rw [← hclen] at hpos hmax hbcnt
    exact exec_decrypt_completes hub huop rfl hctx hpos hmax (hbcnt ▸ blockCount_le_bmax hp hmax)
  case text =>
    exact fun p hlt => readByte_viewedFrom_made _ hbij hclen hbcnt hckey (fun j _ => hentries j) hlt
  case terminator =>
    rw [← hclen]
    exact readByte_viewedFrom_last _ u

/-! ### The collapse (R164) -/

/-- Settles O23: under a block count that is a multiple of 5 the visited indices are the multiples of 5. -/
theorem collapseWithoutGuard : Obligations.CollapseWithoutGuard := by
  unfold Obligations.CollapseWithoutGuard
  intro s hp _
  refine ⟨fun hb hop hlen hbc h5 => ?make, fun hb hop hctx hlen hbcnt hbc h5 => ?decrypt⟩
  case make =>
    refine ⟨madeFrom s, exec_make_completes_of_supported hb hop hp hlen, fun j hj => ?_⟩
    have hvisited : Visited (blockCount s.len.toNat) j ↔ j % 5 = 0 := by
      rw [visited_iff_five_dvd hbc h5, and_iff_right hj]
    rw [madeFrom_ckey, blkEntry_madeFrom, if_congr hvisited rfl rfl]
    rfl
  case decrypt =>
    obtain ⟨hpos, hmax, -⟩ := (supported_iff _ _).mp hlen
    refine ⟨viewedFrom s.ctxl.toNat s,
      exec_decrypt_completes hb hop rfl hctx hpos hmax (hbcnt ▸ blockCount_le_bmax hp hmax),
      readByte_viewedFrom_last _ s, fun p hlt hp5 => ?_⟩
    have unvisited : ¬ Visited s.bcnt.toNat (p / 8) := by
      rw [hbcnt, visited_iff_five_dvd hbc h5]
      exact fun h => hp5 h.2
    rw [readByte_viewedFrom, if_neg hlt.ne, if_neg fun h => unvisited h.2]

end Sys2Proof.Machine

/-! PROOF. From a state that meets the invariant no step stops (42_container.md R163, 60_exceptions.md R200, R206): the
engine's turn completes what was admitted, and every bus transaction has an outcome. -/

namespace Sys2Proof.Machine

/-- The engine's turn: nothing while idle, else the completion, which the invariant admits. -/
theorem engineTurn_answers {s : State} (h : s.Invariant) (rest : List Input) :
    ∃ t, engineTurn (advance rest s) = .next t := by
  cases hb : s.busy with
  | false => exact ⟨advance rest s, by simp [engineTurn, hb]⟩
  | true =>
    have hturn : State.Invariant { s with inputs := .engine :: rest } :=
      invariant_err h (.engine :: rest) h.err s.reply s.draws
    obtain ⟨i, -, hstep⟩ := step_engine_completes hturn hb rfl
    exact ⟨_, hstep⟩

/-- A write to CMD, idle: CLRERR, an acceptance or a refusal. -/
theorem writeCommand_answers (w : Word) {s : State} (hb : s.busy = false) : ∃ t, writeCommand w s = .next t := by
  rcases writeCommand_cases w s hb with ⟨-, h⟩ | ⟨i, -, -, h⟩ | ⟨e, -, h⟩
  · exact ⟨_, h⟩
  · exact ⟨_, h⟩
  · exact ⟨_, h⟩

/-- The port answers every transaction, in any state. -/
theorem busTurn_answers (a : Access) (s : State) : ∃ t, busTurn a s = .next t := by
  unfold busTurn
  cases a.data with
  | none => exact ⟨busRead a s, rfl⟩
  | some w =>
    simp only [busWrite]
    cases hb : s.busy with
    | true => exact ⟨refuse .busy s, rfl⟩
    | false =>
      rw [if_neg (by decide)]
      split
      · exact writeCommand_answers w hb
      · next l _ _ => exact ⟨storeLoc l w s, rfl⟩
      · exact ⟨refuse .bus s, rfl⟩

/-- Settles O47, input by input. -/
theorem noStepStops : Obligations.NoStepStops := by
  unfold Obligations.NoStepStops
  intro s hinv
  rw [State.inv_iff] at hinv
  rcases step_cases s with ⟨rest, -, hstep⟩ | ⟨a, rest, -, hstep⟩ | ⟨rest, -, hstep⟩
  · rw [hstep]
    exact engineTurn_answers hinv rest
  · rw [hstep]
    exact busTurn_answers a (advance rest s)
  · exact ⟨_, hstep⟩

end Sys2Proof.Machine

/-! PROOF. The step as one `exec` (43_system.md R190, R192): a CMD write runs the command of its word, the engine's turn
the command in OP; then CLRERR (R191), and the whole write sequence of R190 decoded word by decoded word. -/

namespace Sys2Proof.Machine

/-! ### CLRERR (R191) -/

/-- R190 step 1 comes before CLRERR. -/
theorem exec_clrerr_busy {s : State} (hb : s.busy = true) : exec .clrerr s = .next (refuse .busy s) := by
  simp [exec, execClrerr, hb]

/-- Settles O29: the word, then CLRERR idle and busy. -/
theorem clrerrClearsErr : Obligations.ClrerrClearsErr := by
  unfold Obligations.ClrerrClearsErr
  refine ⟨decode_eq_clrerr_iff, exec_clrerr_idle, fun s hb => ?busy⟩
  case busy =>
    rw [exec_clrerr_busy hb, refuse_eq_ite]
    rfl

/-! ### The engine's turn (R192) -/

/-- The engine's turn is taken from the inputs or, when none is left, by itself (70_reset_and_hazards.md R242). -/
theorem step_engineNext {s : State} {rest : List Input} (h : EngineNext s rest) :
    step s = engineTurn (advance rest s) := by
  rcases h with ⟨hi, rfl⟩ | hi
  · exact step_none s hi
  · exact step_engine s rest hi

theorem engineTurn_busy {s : State} {i : Instr} (hb : s.busy = true) (hp : inProgress s = some i) :
    engineTurn s = exec i s := by
  simp [engineTurn, hb, hp]

/-- Settles O5: each value of OP names its command in progress. -/
theorem stepCompletesTheLatchedCommand : Obligations.StepCompletesTheLatchedCommand := by
  unfold Obligations.StepCompletesTheLatchedCommand
  intro s i rest hinputs hb hop
  have named : inProgress s = some i := by
    rcases hop with ⟨hop, rfl⟩ | ⟨hop, rfl⟩ | ⟨hop, rfl⟩ | ⟨hop, rfl⟩ | ⟨hop, rfl⟩
    · exact inProgress_kderive s hop
    · exact inProgress_encblk s hop
    · exact inProgress_decblk s hop
    · exact inProgress_make s hop
    · exact inProgress_decrypt s hop
  rw [step_engineNext hinputs.symm]
  exact engineTurn_busy hb named

/-! ### The CMD write (R190) -/

/-- R190 step 1. -/
theorem step_commandWrite_busy {s : State} {w : Word} {rest : List Input} (hi : s.inputs = commandWrite w :: rest)
    (hb : s.busy = true) : step s = .next (refuse .busy (advance rest s)) := by
  rw [step_write_busy hi (Option.some_ne_none w) hb, refuse_eq_ite]
  rfl

/-- An idle CMD write of a legal word is `exec` of its command. -/
theorem step_commandWrite_decoded {s : State} {w : Word} {i : Instr} {rest : List Input}
    (hi : s.inputs = commandWrite w :: rest) (hb : s.busy = false) (hd : decode w = .ok i) :
    step s = exec i (advance rest s) := by
  rw [step_commandWrite_idle hi hb, writeCommand, hd]

/-- Settles O4. -/
theorem stepRunsTheWrittenCommand : Obligations.StepRunsTheWrittenCommand := by
  unfold Obligations.StepRunsTheWrittenCommand
  exact fun _ _ _ _ => step_commandWrite_decoded

/-- R190 step 5: OP and CTXL take the fields of the word that was written. -/
theorem latch_of_decode {w : Word} {i : Instr} (hd : decode w = .ok i) (s : State) :
    latch i s = { s with op := w.extractLsb' 0 8, ctxl := w.extractLsb' 8 4, busy := true, done := false } := by
  obtain ⟨-, rfl⟩ := encode_of_decode hd
  rfl

/-- Recording a code, read as R190 orders it: step 2 (a pending ERR) first, then the refusal. -/
theorem refuse_eq_pending (c : ErrCode) (s : State) :
    refuse c s = if s.err ≠ 0 then s else { s with err := c.code } :=
  (ite_not ..).symm

/-- R190 steps 2 and 5 for KDERIVE, which has no check of its own. -/
theorem exec_kderive_idle {s : State} (hb : s.busy = false) :
    exec .kderive s = .next (if s.err ≠ 0 then s else latch .kderive s) := by
  rw [ite_not]
  exact exec_idle_of_check_none (by decide) hb rfl

/-- Settles O6: step 1 while busy; idle, the word decides which of the steps 2 to 5 apply. -/
theorem commandWriteSequence : Obligations.CommandWriteSequence := by
  unfold Obligations.CommandWriteSequence
  intro s w rest hi s0 accepted
  cases hb : s.busy with
  | true => exact step_commandWrite_busy hi hb
  | false =>
    have idle : s0.busy = false := hb
    cases hd : decode w with
    | error e =>
      rw [step_commandWrite_idle hi hb, writeCommand, hd]
      exact congrArg _ (refuse_eq_pending .opcode s0)
    | ok i =>
      have latched : latch i s0 = accepted := latch_of_decode hd s0
      rw [step_commandWrite_decoded hi hb hd, ← latched]
      cases i with
      | clrerr => exact exec_clrerr_idle s0 idle
      | kderive => exact exec_kderive_idle idle
      | encblk => exact exec_idle_of_keyCheck (by decide) idle rfl
      | decblk => exact exec_idle_of_keyCheck (by decide) idle rfl
      | make =>
        rw [latch_make]
        exact exec_make_idle idle
      | decrypt c =>
        rw [latch_decrypt]
        exact exec_decrypt_idle c idle

end Sys2Proof.Machine

/-! PROOF. What leaves the block as it was (60_exceptions.md R202, R212): a refusal changes ERR at most, and the engine's
turn with no command in progress changes nothing. -/

namespace Sys2Proof.Machine

/-! ### A refusal (R202) -/

theorem refuse_of_err_zero {s : State} (c : ErrCode) (h : s.err = 0) : refuse c s = { s with err := c.code } :=
  if_pos h

theorem refuse_of_err_ne_zero {s : State} (c : ErrCode) (h : s.err ≠ 0) : refuse c s = s :=
  if_neg h

/-- Settles O30: ERR was 0, ERR was not 0, then the code of each cause (R201). -/
theorem refusalRecordsTheFirstCode : Obligations.RefusalRecordsTheFirstCode := by
  unfold Obligations.RefusalRecordsTheFirstCode
  refine fun c s => ⟨refuse_of_err_zero c, refuse_of_err_ne_zero c, ?code⟩
  case code => cases c <;> rfl

/-! ### The idle engine (R212) -/

theorem engineTurn_idle {s : State} (hb : s.busy = false) : engineTurn s = .next s := by
  simp [engineTurn, hb]

/-- Settles O55: the step is the engine's turn, and that turn is idle. -/
theorem idleEngineRetainsAllState : Obligations.IdleEngineRetainsAllState := by
  unfold Obligations.IdleEngineRetainsAllState
  intro s rest hb hturn
  have idle : engineTurn (advance rest s) = .next (advance rest s) := engineTurn_idle hb
  exact ⟨(step_engineNext hturn).trans idle, rfl⟩

end Sys2Proof.Machine

/-! PROOF. Termination of a command (70_reset_and_hazards.md R242): while BUSY = 1 every step that does not end the
command takes an input, and with no input left the engine's turn ends it. -/

namespace Sys2Proof.Machine

/-- A step from BUSY = 1 ends the command, by its completion or a reset, or is a bus transaction, which takes the
first of the inputs. -/
theorem step_busy_ends_or_takes_input {s t : State} (hb : s.busy = true) (hstep : step s = .next t) :
    t.busy = false ∨ (t.busy = true ∧ ∃ i, s.inputs = i :: t.inputs) := by
  have notIdle : s.busy ≠ false := by simp [hb]
  rcases step_next_cases s t hstep with
    ⟨rest, -, rfl⟩ | ⟨rest, -, idle, -⟩ | ⟨rest, i, -, -, -, -, rfl⟩ | ⟨a, rest, hi, e, r, d, rfl, -⟩ |
      ⟨w, rest, -, idle, -⟩ | ⟨w, rest, i, -, idle, -⟩ | ⟨ad, w, rest, l, -, idle, -⟩
  · exact .inl rfl
  · exact absurd idle notIdle
  · exact .inl rfl
  · exact .inr ⟨hb, .bus a, hi⟩
  · exact absurd idle notIdle
  · exact absurd idle notIdle
  · exact absurd idle notIdle

/-- Settles O51, by induction on the inputs left; under the invariant no step stops (O47) and every step keeps it
(O46). -/
theorem everyCommandTerminates : Obligations.EveryCommandTerminates := by
  unfold Obligations.EveryCommandTerminates
  intro s hinv hb
  induction hin : s.inputs generalizing s with
  | nil =>
    obtain ⟨t, hstep⟩ := noStepStops s hinv
    rcases step_busy_ends_or_takes_input hb hstep with idle | ⟨-, i, hi⟩
    · exact ⟨1, t, le_rfl, run_succ_of_step hstep 0, idle⟩
    · simp [hin] at hi
  | cons i rest ih =>
    obtain ⟨t, hstep⟩ := noStepStops s hinv
    rcases step_busy_ends_or_takes_input hb hstep with idle | ⟨busy, j, hj⟩
    · exact ⟨1, t, by simp, run_succ_of_step hstep 0, idle⟩
    · have taken : t.inputs = rest := by
        rw [hin] at hj
        exact (List.cons.inj hj).2.symm
      obtain ⟨k, u, hk, hrun, idle⟩ := ih t (everyStepKeepsTheInvariant s t hinv hstep) busy taken
      exact ⟨k + 1, u, Nat.succ_le_succ hk, (run_succ_of_step hstep k).trans hrun, idle⟩

end Sys2Proof.Machine
